-- ==== Sys2Proof/Word.lean ====
section
/-! DEFINITION. The words of the block: bytes, the sixteen-byte buffer, byte counts (00_scope R9, 10_state R24). -/

namespace Sys2Proof

/-- An 8-bit quantity: a message byte, `DR`, `bpd.a`. -/
abbrev Byte := BitVec 8

/-- Sixteen bytes, index 0 to 15: a payload, a response buffer, `bte.buf` (20_memory R60). -/
abbrev Buf := Vector Byte 16

/-- A byte count 0 to 16: `bte.n`, `bte.idx`, `bpd.size`, a response's `length` (10_state Table 10-1). -/
abbrev Count := Fin 17

/-- Sixteen zero bytes. -/
abbrev Buf.zero : Buf := Vector.replicate 16 0

end Sys2Proof
end

