-- ==== Sys2Proof/Config.lean ====
section
/-! DEFINITION. What is fixed for one block: the parameters of 00_scope Table 00-1, and the free values. -/

namespace Sys2Proof

/-- The parameters a model takes as arguments (00_scope Table 00-1, R7, R295; D4, D6, D30). They stand in State so that a statement over
every state is a statement over every value of them; no step writes them. -/
structure Params where
  /-- FAULT_EXIT: a BPD wait also ends when a fault flag is set (40 R126). -/
  faultExit : Bool
  /-- REQ_CAP: messages the request channel holds (42 R171). -/
  reqCap : Nat
  /-- RSP_CAP: messages the response channel holds (42 R171). -/
  rspCap : Nat
  /-- N_PRODUCERS: how many producer contexts there are (00_scope R8). -/
  nProducers : Nat
deriving DecidableEq, Repr

/-- The defaults: FAULT_EXIT true (D4), REQ_CAP = RSP_CAP = 1 (D6). DESIGN CHOICE (A9, unsafe): one producer. -/
def Params.launch : Params := ⟨true, 1, 1, 1⟩

/-- The two parameters the spec bounds from below: capacities and the number of producers are at least 1 (00_scope Table 00-1, D6). -/
def Params.sound (p : Params) : Bool := decide (1 ≤ p.reqCap) && decide (1 ≤ p.rspCap) && decide (1 ≤ p.nProducers)

namespace Config

/-- PAGE_SIZE of the EEPROM target, bytes (00_scope Table 00-1). -/
def pageSize : Nat := 16

/-- EEPROM_CAP, bytes (00_scope Table 00-1). -/
def eepromCap : Nat := 512

/-- ENQ_TIMEOUT: "short fixed", no value, read by no rule (42 R173, D7; A24). -/
opaque enqTimeout : Nat

/-- The free byte number `i`: a byte of a response's `buffer` that carries no meaning (42 R183, U8; A7). Nothing constrains it. -/
opaque freeByte : Nat → Byte

end Config

end Sys2Proof
end

