-- ==== Sys2Proof/Syntax.lean ====
section
/-! DEFINITION. The syntax: the two message records, the CFG record, the 30 rows of the opcode table, and what can arrive at the block. -/

namespace Sys2Proof

/-- The answer to a byte on the bus (00_scope R12). -/
inductive Answer
  | ack
  | nack
deriving DecidableEq, Repr

/-- A TransferRequest as the channel holds it (30_encoding R91, Table 30-1). `kind` and `length` are whole bytes: the channel does not look
inside a message (42 R172), so reserved values can stand here until TS1 meets them (30_encoding R101). -/
structure TransferRequest where
  kind : Byte
  deviceAddress : Byte
  length : Byte
  payload : Buf
deriving DecidableEq, Repr

/-- The two statuses (30_encoding R92). -/
inductive Status
  | success
  | error
deriving DecidableEq, Repr

/-- A TransferResponse (30_encoding R92, Table 30-2). -/
structure TransferResponse where
  status : Status
  length : Count
  buffer : Buf
deriving DecidableEq, Repr

/-- The `busSpeed` operand of INIT: the one admitted value, or another, which is refused (30_encoding R94, R103). -/
inductive BusSpeed
  | fastMode400kHz
  | other (hz : Nat)
deriving DecidableEq, Repr

/-- CFG, the operand record of INIT (30_encoding R94); also the five `cfg` items (10_state R42). `riseTime` is uninterpreted (A21). -/
structure CfgRecord where
  busClockHz : Nat
  busSpeed : BusSpeed
  riseTime : Nat
  analogFilter : Bool
  digitalFilter : Bool
deriving DecidableEq, Repr

/-- The CFG record of the spec's own example, `INIT clk=42000000` (40 R121). DESIGN CHOICE (A17): the record that stands beside a CMD word
when only the word is given. -/
def CfgRecord.sample : CfgRecord := ⟨42000000, .fastMode400kHz, 0, true, false⟩

/-- The steps of `beginWrite` (40 R122). BW1 takes the command's operand; BW2 to BW4 are the steps of the open command (A13). -/
inductive BeginWriteStep
  | bw1 (address : Byte)
  | bw2
  | bw3
  | bw4
deriving DecidableEq, Repr

/-- The steps of `beginRead` (40 R123). BR1 takes the command's operands; BR2 to BR6 are the steps of the open command (A13). -/
inductive BeginReadStep
  | br1 (address size : Byte)
  | br2
  | br3
  | br4
  | br5
  | br6
deriving DecidableEq, Repr

/-- BW1 is the step that issues the command. -/
def BeginWriteStep.isFirst : BeginWriteStep → Bool
  | .bw1 _ => true
  | .bw2 => false
  | .bw3 => false
  | .bw4 => false

/-- BR1 is the step that issues the command. -/
def BeginReadStep.isFirst : BeginReadStep → Bool
  | .br1 _ _ => true
  | .br2 => false
  | .br3 => false
  | .br4 => false
  | .br5 => false
  | .br6 => false

/-- The 30 rows of spec/opcode_table.json. `k` is the index of the producer at whose side of a channel the step is taken (00_scope R8). -/
inductive Instr
  /-- REQ.WRITE: a Write message arrives at the request channel from producer `k` (42 R190). -/
  | reqWrite (k : Nat) (deviceAddress length : Byte) (payload : Buf)
  /-- REQ.READ: a Read message arrives at the request channel from producer `k` (42 R191). -/
  | reqRead (k : Nat) (deviceAddress length : Byte) (payload : Buf)
  /-- RSP.SUCCESS: a Success message on the response channel, taken by producer `k` (42 R192). -/
  | rspSuccess (k : Nat) (length : Count) (buffer : Buf)
  /-- RSP.ERROR: an Error message on the response channel, taken by producer `k` (42 R193). -/
  | rspError (k : Nat) (length : Count) (buffer : Buf)
  /-- CMD.INIT with its CFG record beside it (40 R121). -/
  | cmdInit (cfg : CfgRecord)
  /-- CMD.BEGINWRITE, steps BW1 to BW4 (40 R122). -/
  | cmdBeginWrite (st : BeginWriteStep)
  /-- CMD.BEGINREAD, steps BR1 to BR6 (40 R123). -/
  | cmdBeginRead (st : BeginReadStep)
  /-- CMD.END, step ET1 (40 R124). -/
  | cmdEnd
  /-- WA.WRITE: the address byte of a write (30_encoding R95, R96). -/
  | waWrite (a : BitVec 7)
  /-- WA.READ: the address byte of a read (30_encoding R95, R96). -/
  | waRead (a : BitVec 7)
  /-- CH.ENQ, step PR1 (42 R172). -/
  | chEnq (k : Nat) (r : TransferRequest)
  /-- CH.ENQ.REJECT, step PR2 (42 R173). -/
  | chEnqReject (k : Nat) (r : TransferRequest)
  /-- CH.RECV, step PR3 (42 R174). -/
  | chRecv (k : Nat)
  /-- TS.DEQUEUE, step TS1 (42 R177). -/
  | tsDequeue
  /-- TS.ADDR_DONE, step TS2 (42 R178). -/
  | tsAddrDone
  /-- TS.ADDR_FAULT, step TS3 (42 R179). -/
  | tsAddrFault
  /-- TS.DATA_DONE, step TS4 (42 R180). -/
  | tsDataDone
  /-- TS.DATA_FAULT, step TS5 (42 R181). -/
  | tsDataFault
  /-- TS.FINISH, step TS6 (42 R182). -/
  | tsFinish
  /-- TS.PUT, step TS7 (42 R184). -/
  | tsPut
  /-- BTE.ARM, step BA1 (41 R152). -/
  | bteArm (n : Byte)
  /-- BTE.DISARM, step BA2 (41 R155). -/
  | bteDisarm
  /-- DATA.WBYTE, step DP1; `answer` is the draw (41 R153). -/
  | dataWbyte (answer : Answer)
  /-- DATA.RBYTE, step DP2; `b` is the draw (41 R154). -/
  | dataRbyte (b : Byte)
  /-- ENV.START, step EV1 (43 R211). -/
  | envStart
  /-- ENV.ADDR_ACK, step EV2 (43 R212). -/
  | envAddrAck
  /-- ENV.ADDR_NACK, step EV3 (43 R214). -/
  | envAddrNack
  /-- ENV.STOP, step EV4 (43 R215). -/
  | envStop
  /-- ENV.BUS_ERROR, step EV5 (43 R216). -/
  | envBusError
  /-- ENV.ARB_LOST, step EV6 (43 R217). -/
  | envArbLost
deriving DecidableEq, Repr

/-- The ports bytes arrive on (30_encoding R90): the format is told by the port. The TS-to-BPD command interface is `Stimulus.command`. -/
inductive Port
  /-- The request channel, at producer `k`'s side: format REQ. -/
  | request (k : Nat)
  /-- The response channel, at producer `k`'s side: format RSP. -/
  | response (k : Nat)
  /-- The wire after a start condition: format WA. -/
  | wire
deriving DecidableEq, Repr

/-- What the block's next move is given by (A1): bytes on a port, a command word with the CFG record beside it (30_encoding R94), or a
step that no bits select (30_encoding Table 30-5). -/
inductive Stimulus
  | message (port : Port) (bytes : List Byte)
  | command (bytes : List Byte) (cfg : CfgRecord)
  | step (i : Instr)
deriving DecidableEq, Repr

end Sys2Proof
end

