-- ==== Sys2Proof/WellFormed.lean ====
section
/-! DEFINITION. Which instructions are well formed: the operand values the formats admit (30_encoding R101 to R103). -/

namespace Sys2Proof

/-- A length or size byte is admitted: 0x01 to 0x10 (30_encoding Tables 30-1, 30-3; D9). -/
def lengthAdmitted (b : Byte) : Bool := decide (1 ≤ b.toNat) && decide (b.toNat ≤ 16)

/-- The CFG values the source's signature gives (30_encoding R94). -/
def CfgRecord.admitted (c : CfgRecord) : Bool := c.busSpeed == .fastMode400kHz && c.analogFilter && !c.digitalFilter

/-- The operands of a `beginRead` step are admitted: BR1 takes a size (30_encoding R103). -/
def BeginReadStep.wellFormed : BeginReadStep → Bool
  | .br1 _ size => lengthAdmitted size
  | .br2 => true
  | .br3 => true
  | .br4 => true
  | .br5 => true
  | .br6 => true

/-- The operands of `i` are among those its format admits. -/
def Instr.wellFormed : Instr → Bool
  | .reqWrite _ _ length _ => lengthAdmitted length
  | .reqRead _ _ length _ => lengthAdmitted length
  | .rspSuccess _ _ _ => true
  | .rspError _ _ _ => true
  | .cmdInit cfg => cfg.admitted
  | .cmdBeginWrite _ => true
  | .cmdBeginRead st => st.wellFormed
  | .cmdEnd => true
  | .waWrite _ => true
  | .waRead _ => true
  | .chEnq _ _ => true
  | .chEnqReject _ _ => true
  | .chRecv _ => true
  | .tsDequeue => true
  | .tsAddrDone => true
  | .tsAddrFault => true
  | .tsDataDone => true
  | .tsDataFault => true
  | .tsFinish => true
  | .tsPut => true
  | .bteArm n => lengthAdmitted n
  | .bteDisarm => true
  | .dataWbyte _ => true
  | .dataRbyte _ => true
  | .envStart => true
  | .envAddrAck => true
  | .envAddrNack => true
  | .envStop => true
  | .envBusError => true
  | .envArbLost => true

end Sys2Proof
end

