-- ==== Sys2Proof/Decode.lean ====
section
/-! DEFINITION. Decoding what arrives at the block, by the port it arrives on (30_encoding R90), total and rejecting by name; the encoder,
written from the same tables (30_encoding Tables 30-1 to 30-4); and the words of spec/opcode_table.json. -/

namespace Sys2Proof

/-- Why bytes have no instruction: the reserved values of 30_encoding R101 to R103, and R105 (every format has one length). -/
inductive DecodeError
  /-- The number of bytes is not the format's (R90, R105). -/
  | wrongLength
  /-- REQ byte 0 above 0x01 (R101). -/
  | reservedKind
  /-- REQ byte 2 is 0x00 or above 0x10 (R101). -/
  | reservedRequestLength
  /-- RSP byte 0 above 0x01 (R102). -/
  | reservedStatus
  /-- RSP byte 1 above 0x10 (R102). -/
  | reservedResponseLength
  /-- CMD byte 0 above 0x03 (R103). -/
  | reservedOp
  /-- CMD byte 2 of BEGINREAD is 0x00 or above 0x10 (R103). -/
  | reservedSize
  /-- A CFG value the source's signature does not give (R94, R103). -/
  | cfgNotAdmitted
deriving DecidableEq, Repr

/-- Sixteen bytes as a buffer; none for any other number of them. -/
def bufOfList (l : List Byte) : Option Buf :=
  if h : l.length = 16 then some ⟨l.toArray, by simpa using h⟩ else none

/-- The record of Table 30-1, whatever values stand in it (19 bytes). -/
def requestOfBytes : List Byte → Option TransferRequest
  | kind :: deviceAddress :: length :: payload =>
    (bufOfList payload).map fun p => ⟨kind, deviceAddress, length, p⟩
  | _ => none

/-- Format REQ (Table 30-1, R101), from producer `k`. -/
def decodeRequest (k : Nat) (bytes : List Byte) : Except DecodeError Instr :=
  match requestOfBytes bytes with
  | none => .error .wrongLength
  | some r =>
    if r.kind = 0x00#8 then
      if lengthAdmitted r.length then .ok (.reqWrite k r.deviceAddress r.length r.payload) else .error .reservedRequestLength
    else if r.kind = 0x01#8 then
      if lengthAdmitted r.length then .ok (.reqRead k r.deviceAddress r.length r.payload) else .error .reservedRequestLength
    else .error .reservedKind

/-- A byte 0x00 to 0x10 as a count (RSP byte 1, Table 30-2). -/
def countOfByte (b : Byte) : Option Count :=
  if h : b.toNat < 17 then some ⟨b.toNat, h⟩ else none

/-- Format RSP (Table 30-2, R102), at producer `k`. -/
def decodeResponse (k : Nat) : List Byte → Except DecodeError Instr
  | status :: length :: buffer =>
    match bufOfList buffer with
    | none => .error .wrongLength
    | some b =>
      match countOfByte length with
      | none => .error .reservedResponseLength
      | some n =>
        if status = 0x00#8 then .ok (.rspSuccess k n b)
        else if status = 0x01#8 then .ok (.rspError k n b)
        else .error .reservedStatus
  | _ => .error .wrongLength

/-- Format CMD (Table 30-3, R103), with the CFG record beside it (R94). Bytes an operation does not read are ignored. -/
def decodeCommand (bytes : List Byte) (cfg : CfgRecord) : Except DecodeError Instr :=
  match bytes with
  | [op, address, size] =>
    if op = 0x00#8 then (if cfg.admitted then .ok (.cmdInit cfg) else .error .cfgNotAdmitted)
    else if op = 0x01#8 then .ok (.cmdBeginWrite (.bw1 address))
    else if op = 0x02#8 then
      (if lengthAdmitted size then .ok (.cmdBeginRead (.br1 address size)) else .error .reservedSize)
    else if op = 0x03#8 then .ok .cmdEnd
    else .error .reservedOp
  | _ => .error .wrongLength

/-- Format WA (Table 30-4): bits 7:1 the address, bit 0 the direction. -/
def decodeWire (bytes : List Byte) : Except DecodeError Instr :=
  match bytes with
  | [b] => if b.getLsbD 0 then .ok (.waRead (b.extractLsb' 1 7)) else .ok (.waWrite (b.extractLsb' 1 7))
  | _ => .error .wrongLength

/-- What a stimulus is an instruction of. A step that no bits select stands for itself (Table 30-5). -/
def decode : Stimulus → Except DecodeError Instr
  | .message (.request k) bytes => decodeRequest k bytes
  | .message (.response k) bytes => decodeResponse k bytes
  | .message .wire bytes => decodeWire bytes
  | .command bytes cfg => decodeCommand bytes cfg
  | .step i => .ok i

/-- The CMD word of a `beginWrite` step (Table 30-3): BW1 is the command, the steps after it have no bits. -/
def BeginWriteStep.bytes : BeginWriteStep → List Byte
  | .bw1 a => [0x01#8, a, 0x00#8]
  | .bw2 => []
  | .bw3 => []
  | .bw4 => []

/-- The CMD word of a `beginRead` step (Table 30-3): BR1 is the command, the steps after it have no bits. -/
def BeginReadStep.bytes : BeginReadStep → List Byte
  | .br1 a n => [0x02#8, a, n]
  | .br2 => []
  | .br3 => []
  | .br4 => []
  | .br5 => []
  | .br6 => []

/-- The bytes of an instruction of a format with bits (Tables 30-1 to 30-4); empty for a step that no bits select. Bytes an operation
ignores are written 0x00 (DESIGN CHOICE, A23). -/
def encodeBytes : Instr → List Byte
  | .reqWrite _ a n p => 0x00#8 :: a :: n :: p.toList
  | .reqRead _ a n p => 0x01#8 :: a :: n :: p.toList
  | .rspSuccess _ n b => 0x00#8 :: BitVec.ofNat 8 n.val :: b.toList
  | .rspError _ n b => 0x01#8 :: BitVec.ofNat 8 n.val :: b.toList
  | .cmdInit _ => [0x00#8, 0x00#8, 0x00#8]
  | .cmdBeginWrite st => st.bytes
  | .cmdBeginRead st => st.bytes
  | .cmdEnd => [0x03#8, 0x00#8, 0x00#8]
  | .waWrite a => [a ++ 0#1]
  | .waRead a => [a ++ 1#1]
  | .chEnq _ _ => []
  | .chEnqReject _ _ => []
  | .chRecv _ => []
  | .tsDequeue => []
  | .tsAddrDone => []
  | .tsAddrFault => []
  | .tsDataDone => []
  | .tsDataFault => []
  | .tsFinish => []
  | .tsPut => []
  | .bteArm _ => []
  | .bteDisarm => []
  | .dataWbyte _ => []
  | .dataRbyte _ => []
  | .envStart => []
  | .envAddrAck => []
  | .envAddrNack => []
  | .envStop => []
  | .envBusError => []
  | .envArbLost => []

/-- The stimulus that stands for an instruction: its bytes on its port, or the step itself where no bits select it. -/
def encode (i : Instr) : Stimulus :=
  match i with
  | .reqWrite k a n p => .message (.request k) (encodeBytes (.reqWrite k a n p))
  | .reqRead k a n p => .message (.request k) (encodeBytes (.reqRead k a n p))
  | .rspSuccess k n b => .message (.response k) (encodeBytes (.rspSuccess k n b))
  | .rspError k n b => .message (.response k) (encodeBytes (.rspError k n b))
  | .cmdInit cfg => .command (encodeBytes (.cmdInit cfg)) cfg
  | .cmdBeginWrite st => if st.isFirst then .command st.bytes .sample else .step (.cmdBeginWrite st)
  | .cmdBeginRead st => if st.isFirst then .command st.bytes .sample else .step (.cmdBeginRead st)
  | .cmdEnd => .command (encodeBytes .cmdEnd) .sample
  | .waWrite a => .message .wire (encodeBytes (.waWrite a))
  | .waRead a => .message .wire (encodeBytes (.waRead a))
  | .chEnq x y => .step (.chEnq x y)
  | .chEnqReject x y => .step (.chEnqReject x y)
  | .chRecv x => .step (.chRecv x)
  | .tsDequeue => .step .tsDequeue
  | .tsAddrDone => .step .tsAddrDone
  | .tsAddrFault => .step .tsAddrFault
  | .tsDataDone => .step .tsDataDone
  | .tsDataFault => .step .tsDataFault
  | .tsFinish => .step .tsFinish
  | .tsPut => .step .tsPut
  | .bteArm x => .step (.bteArm x)
  | .bteDisarm => .step .bteDisarm
  | .dataWbyte x => .step (.dataWbyte x)
  | .dataRbyte x => .step (.dataRbyte x)
  | .envStart => .step .envStart
  | .envAddrAck => .step .envAddrAck
  | .envAddrNack => .step .envAddrNack
  | .envStop => .step .envStop
  | .envBusError => .step .envBusError
  | .envArbLost => .step .envArbLost

/-- The lowest `n` bytes of a number, the least significant first. -/
def wordBytes : Nat → Nat → List Byte
  | 0, _ => []
  | n + 1, w => BitVec.ofNat 8 w :: wordBytes n (w / 256)

/-- The stimulus of a table word: the shortest format that holds `nbits` bits, on its port, at producer 0; a CMD word has the sample CFG
record beside it. DESIGN CHOICE (A5): a word says no port, so its number of bits stands for it. -/
def stimulusOfWord (nbits w : Nat) : Stimulus :=
  if nbits ≤ 8 then .message .wire (wordBytes 1 w)
  else if nbits ≤ 24 then .command (wordBytes 3 w) .sample
  else if nbits ≤ 144 then .message (.response 0) (wordBytes 18 w)
  else .message (.request 0) (wordBytes 19 w)

/-- What the decoder reads from a word of spec/opcode_table.json. A row without bits has no word. -/
def decodeTableWord (nbits w : Nat) : Option Instr :=
  if nbits = 0 then none
  else
    match decode (stimulusOfWord nbits w) with
    | .ok i => some i
    | .error _ => none

end Sys2Proof
end

