-- ==== Sys2Proof/Machine/State.lean ====
section
/-! DEFINITION. The state of the block (10_state Table 10-1), as plain data, its value after reset, and the reasons a step can stop. -/

namespace Sys2Proof.Machine

/-- The nine values of `bpd.pc` (10_state Table 10-2). -/
inductive BpdPc
  | ready
  | wSb
  | sendAddr
  | wAmW
  | wAddrR
  | cfgAck
  | wMslR
  | dataW
  | dataR
deriving DecidableEq, Repr

/-- The five values of `ts.pc` (10_state R28). -/
inductive TsPc
  | tsWait
  | tsAddr
  | tsData
  | tsFinish
  | tsResp
deriving DecidableEq, Repr

/-- `bpd.*`: the sequencer and the latched operands of the open command (10_state R22, R25, R43). -/
structure Bpd where
  pc : BpdPc
  inited : Bool
  rw : Bool
  a : Byte
  size : Count
deriving DecidableEq, Repr

/-- `ctl.*`: the control bits (10_state R37 to R41). -/
structure Ctl where
  start : Bool
  stop : Bool
  ack : Bool
  bteEn : Bool
  last : Bool
deriving DecidableEq, Repr

/-- `sr.*`: three status flags and three fault flags (10_state R29 to R34). -/
structure Sr where
  startSent : Bool
  addrAcked : Bool
  master : Bool
  ackFail : Bool
  busErr : Bool
  arbLost : Bool
deriving DecidableEq, Repr

/-- `hid.*`: hidden state (10_state R46, R47). -/
structure Hid where
  addrPending : Bool
  rxClosed : Bool
deriving DecidableEq, Repr

/-- `bte.*`: the block-transfer engine (10_state R24). `dir` is false for memory to bus, true for bus to memory. -/
structure Bte where
  armed : Bool
  dir : Bool
  n : Count
  idx : Count
  buf : Buf
deriving DecidableEq, Repr

/-- `ts.*`: the scheduler (10_state R23, R28). -/
structure Ts where
  pc : TsPc
  req : TransferRequest
  status : Status
  rsp : TransferResponse
deriving DecidableEq, Repr

/-- A wire event (00_scope R12): `S`, `A(b, k)`, `W(b, k)`, `R(b, k)`, `P`. -/
inductive WireEvent
  | start
  | addr (b : Byte) (k : Answer)
  | wr (b : Byte) (k : Answer)
  | rd (b : Byte) (k : Answer)
  | stop
deriving DecidableEq, Repr

/-- What a channel operation told producer `k`: Accepted (42 R172), Rejected (42 R173), the response it was given (42 R174). -/
inductive ProducerNote
  | accepted (k : Nat) (r : TransferRequest)
  | rejected (k : Nat) (r : TransferRequest)
  | received (k : Nat) (r : TransferResponse)
deriving DecidableEq, Repr

/-- The state. The items down to `refused` are Table 10-1 (10_state R20); the last four fields are the model's own. -/
structure State where
  bpd : Bpd
  dr : Byte
  ctl : Ctl
  cfg : CfgRecord
  sr : Sr
  hid : Hid
  bte : Bte
  ts : Ts
  reqch : List TransferRequest
  rspch : List TransferResponse
  trace : List WireEvent
  refused : Bool
  /-- The parameters of 00_scope Table 00-1; no step writes them (A9). -/
  par : Params
  /-- The moves to come, the next one first (A1). -/
  agenda : List Stimulus
  /-- How many free bytes have been drawn (A7). -/
  draws : Nat
  /-- What producers have been told (A16). -/
  told : List ProducerNote
deriving DecidableEq, Repr

/-- The ways the machine stops with a fault: none. "No condition in this subsystem is treated as fatal" (60 R244): the faults of the block
are flags, taken by the abort sequence (60 R246), so nothing raises a value of this type. -/
inductive Fault
deriving DecidableEq, Repr

/-- The reasons the model gives a step no meaning. -/
inductive Refusal
  /-- Raised by an arm of exec for an instruction whose meaning is not written. Safe: nothing can be proved of what it does. -/
  | notModelled (mnemonic : String)
  /-- Raised by step once the sticky mark `refused` is set: "A model sets the sticky ghost bit `refused` and stops giving the block steps"
  (30_encoding R104). Safe: no claim holds of what follows. -/
  | refusedMarkSet
deriving DecidableEq, Repr

/-- The request record that stands in `ts.req` at reset (DESIGN CHOICE, A6). -/
def zeroRequest : TransferRequest := ⟨0, 0, 0, .zero⟩

/-- The response record that stands in `ts.rsp` at reset (DESIGN CHOICE, A6). -/
def zeroResponse : TransferResponse := ⟨.success, 0, .zero⟩

/-- The state right after reset (10_state R50, 70 R280). Items whose reset value is "none" there hold a value named in A6. -/
def State.reset : State where
  bpd := ⟨.ready, false, false, 0, 0⟩
  dr := 0
  ctl := ⟨false, false, false, false, false⟩
  cfg := ⟨0, .fastMode400kHz, 0, false, false⟩
  sr := ⟨false, false, false, false, false, false⟩
  hid := ⟨false, false⟩
  bte := ⟨false, false, 0, 0, .zero⟩
  ts := ⟨.tsWait, zeroRequest, .success, zeroResponse⟩
  reqch := []
  rspch := []
  trace := []
  refused := false
  par := .launch
  agenda := []
  draws := 0
  told := []

end Sys2Proof.Machine
end

