-- ==== Sys2Proof/Machine/Operands.lean ====
section
/-! DEFINITION. Operand assembly (30_encoding R96 to R98, R101) and the block's answer to a received byte (41 R151). -/

namespace Sys2Proof.Machine

/-- The address byte `{a8[6:0], rw}` (30_encoding R96): bit 7 of the operand is dropped, the direction bit goes below the address. -/
def wireByte (a8 : Byte) (rw : Bool) : Byte := a8.extractLsb' 0 7 ++ BitVec.ofBool rw

/-- The 7-bit device address of an 8-bit operand: bit 7 is dropped (30_encoding R96). -/
def deviceAddress7 (a8 : Byte) : BitVec 7 := a8.extractLsb' 0 7

/-- A length or size operand, 1 to 16, as a count; none for any other byte (30_encoding R97, R101, R103; D9). -/
def operandCount (b : Byte) : Option Count :=
  if h : 1 ≤ b.toNat ∧ b.toNat ≤ 16 then some ⟨b.toNat, by omega⟩ else none

/-- The acknowledge bit `beginRead` configures: `size != 1` (30_encoding R98). -/
def ackBit (size : Count) : Bool := decide (size.val ≠ 1)

/-- A request is a Read: kind 0x01 (30_encoding R91). -/
def isRead (r : TransferRequest) : Bool := r.kind == 0x01#8

/-- A request is a Write: kind 0x00 (30_encoding R91). -/
def isWrite (r : TransferRequest) : Bool := r.kind == 0x00#8

/-- Admitted requests: kind Write or Read and `1 ≤ length ≤ 16` (42 R175). -/
def admitted (r : TransferRequest) : Bool := (isWrite r || isRead r) && (operandCount r.length).isSome

/-- The block's answer to received byte number `i` of a read of `n` bytes (41 R151). -/
def readAnswer (ack last : Bool) (i n : Count) : Answer :=
  if ack && !(last && decide (i.val + 1 = n.val)) then .ack else .nack

/-- The index of the next byte to move, while `idx < n` (41 R153, R154). -/
def nextIndex (idx n : Count) : Option (Fin 16) :=
  if h : idx.val < n.val then some ⟨idx.val, by omega⟩ else none

/-- A CFG record INIT accepts (30_encoding R94, R103): fast-mode 400 kHz, analog filter on, digital filter off. -/
def cfgAccepted (c : CfgRecord) : Bool := c.busSpeed == .fastMode400kHz && c.analogFilter && !c.digitalFilter

end Sys2Proof.Machine
end

