-- ==== Sys2Proof/Machine/Flags.lean ====
section
/-! DEFINITION. The flag computations: `fault_any` (10_state R35), the guard `G` (40 R120), the three fault kinds and their flags
(60 Table 60-1), and the clean-up of the flags (42 R182). -/

namespace Sys2Proof.Machine

/-- The faults of the block, all of them (60 Table 60-1, R240). -/
inductive FaultKind
  | ackFailure
  | busError
  | arbitrationLost
deriving DecidableEq, Repr

/-- `fault_any` (10_state R35). -/
def faultAny (s : State) : Bool := s.sr.ackFail || s.sr.busErr || s.sr.arbLost

/-- The guard of every BPD step after the first: `(ts.pc == TS_ADDR) ∧ (FAULT_EXIT → ¬fault_any)` (40 R120, R126). -/
def bpdGuard (s : State) : Bool := s.ts.pc == .tsAddr && (!s.par.faultExit || !faultAny s)

/-- Sets the flag of a fault kind (60 Table 60-1). -/
def setFaultFlag (f : FaultKind) (r : Sr) : Sr :=
  match f with
  | .ackFailure => { r with ackFail := true }
  | .busError => { r with busErr := true }
  | .arbitrationLost => { r with arbLost := true }

/-- The flags TS6 clears: the three fault flags, `start_sent`, `addr_acked`; `master` stays (42 R182). -/
def clearFlags (r : Sr) : Sr :=
  { r with ackFail := false, busErr := false, arbLost := false, startSent := false, addrAcked := false }

end Sys2Proof.Machine
end

