-- ==== Sys2Proof/Machine/Ops.lean ====
section
/-! DEFINITION. The shared operations over the state: waiting, refusing, the wire trace, the channels, the commands of the BPD and the
engine that other steps contain, and the abort sequence (60 R246), which is how this block takes a fault. -/

namespace Sys2Proof.Machine

/-- A step with a guard: "A step whose `pre` is false cannot happen" (00_scope R13), so the agent waits and nothing changes (A2). -/
def stepWhen (pre : Bool) (eff s : State) : Host.Outcome State Fault Refusal :=
  .next (if pre then eff else s)

/-- "refuse": the sticky mark is set and the situation has no other effect (30_encoding R104). -/
def refuse (s : State) : State := { s with refused := true }

/-- An operation that is refused where its `pre` fails (30_encoding R103, 93 U5, U6). -/
def orRefuse (s : State) (r : Option State) : State := r.getD (refuse s)

/-- `trace ++ [e]` (00_scope R10). -/
def emit (e : WireEvent) (s : State) : State := { s with trace := s.trace ++ [e] }

/-- A channel operation tells a producer something (42 R172 to R174; A16). -/
def tell (n : ProducerNote) (s : State) : State := { s with told := s.told ++ [n] }

/-! ### The channels -/

/-- There is a producer `k` (00_scope R8; A25). -/
def producer (k : Nat) (s : State) : Bool := decide (k < s.par.nProducers)

/-- The guard of PR1 (42 R172). -/
def hasRoom (s : State) : Bool := decide (s.reqch.length < s.par.reqCap)

/-- The guard of PR2 (42 R173). -/
def isFull (s : State) : Bool := decide (s.reqch.length = s.par.reqCap)

/-- PR1: the record is appended whole and the caller is told Accepted (42 R172, 20_memory R70). -/
def accept (k : Nat) (r : TransferRequest) (s : State) : State :=
  tell (.accepted k r) { s with reqch := s.reqch ++ [r] }

/-- PR2: the caller is told Rejected and nothing else changes (42 R173). -/
def reject (k : Nat) (r : TransferRequest) (s : State) : State := tell (.rejected k r) s

/-- A message arrives at the request channel: PR1 where there is room, PR2 where the channel is full (30_encoding R106; A10). -/
def offer (k : Nat) (r : TransferRequest) (s : State) : State :=
  if producer k s then (if hasRoom s then accept k r s else if isFull s then reject k r s else s) else s

/-- PR3: the caller is given the front response, which leaves the channel (42 R174); an empty channel makes the caller wait. -/
def receive (k : Nat) (s : State) : State :=
  if producer k s then
    match s.rspch with
    | [] => s
    | q :: rest => tell (.received k q) { s with rspch := rest }
  else s

/-- PR3 on a given message: producer `k` takes the response `q` while it is the front of the channel (A11). -/
def receiveMessage (k : Nat) (q : TransferResponse) (s : State) : State :=
  if s.rspch.head? = some q then receive k s else s

/-! ### The commands of the BPD that other steps contain -/

/-- BW1 (40 R122); none where `pre` fails, which is refused (30_encoding R103). -/
def beginWriteStart (address : Byte) (s : State) : Option State :=
  if s.bpd.inited && s.bpd.pc == .ready then
    some { s with bpd.rw := false, bpd.a := address, bpd.pc := .wSb, ctl.start := true }
  else none

/-- BR1 (40 R123); none where `pre` fails, which is refused (30_encoding R103). -/
def beginReadStart (address size : Byte) (s : State) : Option State :=
  if s.bpd.inited && s.bpd.pc == .ready then
    (operandCount size).map fun n =>
      { s with bpd.rw := true, bpd.a := address, bpd.size := n, bpd.pc := .wSb, hid.rxClosed := false, ctl.start := true }
  else none

/-- ET1, `endTransaction` (40 R124); none where `pre` fails, which is refused (30_encoding R103). It clears no flag. -/
def endTransaction (s : State) : Option State :=
  if s.bpd.inited && s.bpd.pc != .ready then
    some { s with ctl.stop := true, ctl.start := false, bpd.pc := .ready }
  else none

/-- BW3 and BR3: the address byte is written into `DR` (40 R122, R123; 30_encoding R96). -/
def writeAddressByte (next : BpdPc) (s : State) : State :=
  { s with dr := wireByte s.bpd.a s.bpd.rw, sr.startSent := false, hid.addrPending := true, bpd.pc := next }

/-! ### The block-transfer engine -/

/-- `bpd.pc ∈ {DATA_W, DATA_R}`. -/
def inDataState (s : State) : Bool := s.bpd.pc == .dataW || s.bpd.pc == .dataR

/-- BA1 (41 R152); none where `pre` fails, which is refused (93 U6). For a read `bte.buf` is left as it was. -/
def armEngine (n : Byte) (s : State) : Option State :=
  if s.ctl.bteEn && !s.bte.armed && inDataState s then
    (operandCount n).map fun c =>
      { s with bte := ⟨true, s.bpd.pc == .dataR, c, 0, if s.bpd.pc == .dataW then s.ts.req.payload else s.bte.buf⟩ }
  else none

/-- BA2 (41 R155): only `bte.armed` changes. -/
def disarmEngine (s : State) : State := { s with bte.armed := false }

/-- The conditions the two data steps share (41 R153, R154). -/
def dataStepReady (s : State) : Bool :=
  s.bte.armed && s.ts.pc == .tsData && s.sr.master && !s.sr.addrAcked && !faultAny s

/-! ### Taking a fault: the abort sequence (60 R246) -/

/-- Step 1, raise: the flag of the kind is set; a lost arbitration also ends master mode and drops a pending address byte (43 R217). -/
def raiseFault (f : FaultKind) (s : State) : State :=
  match f with
  | .arbitrationLost => { s with sr := { setFaultFlag f s.sr with master := false }, hid.addrPending := false }
  | _ => { s with sr := setFaultFlag f s.sr }

/-- Step 2, observe: the outcome is known (TS3, TS5; TS4 with Success). -/
def latchOutcome (st : Status) (s : State) : State := { s with ts.status := st, ts.pc := .tsFinish }

/-- The response's buffer (42 R183): the bytes received of a Read; every other byte is a free byte (A7). -/
def responseBuffer (s : State) : Buf :=
  Vector.ofFn fun i =>
    if isRead s.ts.req && decide (i.val < s.bte.idx.val) then s.bte.buf[i] else Config.freeByte (s.draws + i.val)

/-- The response TS6 composes (42 R182). -/
def composeResponse (s : State) : TransferResponse := ⟨s.ts.status, s.bte.idx, responseBuffer s⟩

/-- Step 3, clean up, on success and on a fault alike (TS6, 42 R182): BA2, ET1, the flags, the response. A refused ET1 refuses the step
(A19). All sixteen free bytes of one response are numbered, used or not. -/
def finishTransaction (s : State) : Option State :=
  (endTransaction (disarmEngine s)).map fun t =>
    { t with
      sr := clearFlags t.sr
      hid.addrPending := false
      ts.rsp := composeResponse s
      ts.pc := .tsResp
      draws := s.draws + 16 }

/-- Step 4, report (TS7, 42 R184). The abort sequence ends here by itself: there is no return operation (60 R248). -/
def putResponse (s : State) : State := { s with rspch := s.rspch ++ [s.ts.rsp], ts.pc := .tsWait }

/-- Step 5, release (EV4, 43 R215): `P` on the wire only if still master. -/
def completeStop (s : State) : State :=
  let t := if s.sr.master then emit .stop s else s
  { t with sr.master := false, ctl.stop := false, hid.addrPending := false }

/-! ### What arrives -/

/-- The next move and the state it is taken in: the front of the agenda leaves it (A1). -/
def fetch (s : State) : Option (Stimulus × State) :=
  match s.agenda with
  | [] => none
  | e :: rest => some (e, { s with agenda := rest })

/-- What arrives and is no instruction. The request channel does not look inside a message (42 R172), so a REQ message with a reserved kind
or length is offered to it and TS1 refuses it later (30_encoding R101; A15). Everything else is refused (R102, R103, R105). -/
def undecoded (e : Stimulus) (s : State) : State :=
  match e with
  | .message (.request k) bytes =>
    match requestOfBytes bytes with
    | some r => offer k r s
    | none => refuse s
  | _ => refuse s

end Sys2Proof.Machine
end

