-- ==== Sys2Proof/Machine/Channels.lean ====
section
/-! DEFINITION. The producer's operations (42 section 2): CH.ENQ, CH.ENQ.REJECT, CH.RECV. -/

namespace Sys2Proof.Machine

/-- CH.ENQ, step PR1 (42 R172). While the channel is full the attempt stays pending (R173). -/
def execChEnq (k : Nat) (r : TransferRequest) (s : State) : Host.Outcome State Fault Refusal :=
  stepWhen (producer k s && hasRoom s) (accept k r s) s

/-- CH.ENQ.REJECT, step PR2 (42 R173). -/
def execChEnqReject (k : Nat) (r : TransferRequest) (s : State) : Host.Outcome State Fault Refusal :=
  stepWhen (producer k s && isFull s) (reject k r s) s

/-- CH.RECV, step PR3 (42 R174). -/
def execChRecv (k : Nat) (s : State) : Host.Outcome State Fault Refusal :=
  .next (receive k s)

end Sys2Proof.Machine
end

