-- ==== Sys2Proof/Machine/Driver.lean ====
section
/-! DEFINITION. The BusProtocolDriver (40): CMD.INIT, CMD.BEGINWRITE, CMD.BEGINREAD, CMD.END, with every step of each. -/

namespace Sys2Proof.Machine

/-- The effect of IN1 (40 R121). It does not write `ctl.ack`. -/
def configure (c : CfgRecord) (s : State) : State :=
  { s with cfg := c, ctl.bteEn := true, ctl.last := true, bpd.inited := true }

/-- CMD.INIT, step IN1 (40 R121). A second INIT, or one with a CFG value the source does not give, is refused (30_encoding R103); an INIT
that is neither waits until the block is at rest (A18). -/
def execCmdInit (c : CfgRecord) (s : State) : Host.Outcome State Fault Refusal :=
  if s.bpd.inited || !cfgAccepted c then .next (refuse s)
  else stepWhen (s.bpd.pc == .ready && s.ts.pc == .tsWait) (configure c s) s

/-- CMD.BEGINWRITE, steps BW1 to BW4 (40 R122). -/
def execCmdBeginWrite (st : BeginWriteStep) (s : State) : Host.Outcome State Fault Refusal :=
  match st with
  | .bw1 address => .next (orRefuse s (beginWriteStart address s))
  | .bw2 =>
    stepWhen (s.bpd.pc == .wSb && !s.bpd.rw && s.sr.startSent && bpdGuard s) { s with bpd.pc := .sendAddr } s
  | .bw3 => stepWhen (s.bpd.pc == .sendAddr && !s.bpd.rw && bpdGuard s) (writeAddressByte .wAmW s) s
  | .bw4 =>
    stepWhen (s.bpd.pc == .wAmW && s.sr.addrAcked && s.sr.master && bpdGuard s)
      { s with sr.addrAcked := false, bpd.pc := .dataW } s

/-- CMD.BEGINREAD, steps BR1 to BR6 (40 R123). BR5, which writes the acknowledge bit, comes before BR6, which opens the data phase. -/
def execCmdBeginRead (st : BeginReadStep) (s : State) : Host.Outcome State Fault Refusal :=
  match st with
  | .br1 address size => .next (orRefuse s (beginReadStart address size s))
  | .br2 =>
    stepWhen (s.bpd.pc == .wSb && s.bpd.rw && s.sr.startSent && bpdGuard s) { s with bpd.pc := .sendAddr } s
  | .br3 => stepWhen (s.bpd.pc == .sendAddr && s.bpd.rw && bpdGuard s) (writeAddressByte .wAddrR s) s
  | .br4 => stepWhen (s.bpd.pc == .wAddrR && s.sr.addrAcked && bpdGuard s) { s with bpd.pc := .cfgAck } s
  | .br5 =>
    stepWhen (s.bpd.pc == .cfgAck && bpdGuard s) { s with ctl.ack := ackBit s.bpd.size, bpd.pc := .wMslR } s
  | .br6 =>
    stepWhen (s.bpd.pc == .wMslR && s.sr.master && bpdGuard s) { s with sr.addrAcked := false, bpd.pc := .dataR } s

/-- CMD.END, step ET1 (40 R124). -/
def execCmdEnd (s : State) : Host.Outcome State Fault Refusal :=
  .next (orRefuse s (endTransaction s))

end Sys2Proof.Machine
end

