-- ==== Sys2Proof/Machine/Engine.lean ====
section
/-! DEFINITION. The data phase (41): BTE.ARM, BTE.DISARM, DATA.WBYTE, DATA.RBYTE. -/

namespace Sys2Proof.Machine

/-- BTE.ARM, step BA1 (41 R152); outside its `pre` it is refused (93 U6). -/
def execBteArm (n : Byte) (s : State) : Host.Outcome State Fault Refusal :=
  .next (orRefuse s (armEngine n s))

/-- BTE.DISARM, step BA2 (41 R155). -/
def execBteDisarm (s : State) : Host.Outcome State Fault Refusal :=
  .next (disarmEngine s)

/-- The effect of DP1 at byte `i` with the target's answer (41 R153): the byte is counted on ACK and raises AckFailure on NACK. -/
def sendByte (i : Fin 16) (answer : Answer) (s : State) : State :=
  let t := emit (.wr s.bte.buf[i] answer) { s with dr := s.bte.buf[i] }
  match answer with
  | .ack => { t with bte.idx := i.succ }
  | .nack => raiseFault .ackFailure t

/-- DATA.WBYTE, step DP1 (41 R153). -/
def execDataWbyte (answer : Answer) (s : State) : Host.Outcome State Fault Refusal :=
  match nextIndex s.bte.idx s.bte.n with
  | none => .next s
  | some i => stepWhen (dataStepReady s && !s.bte.dir && s.bpd.pc == .dataW) (sendByte i answer s) s

/-- The effect of DP2 at byte `i` with the target's byte (41 R154). -/
def takeByte (i : Fin 16) (b : Byte) (s : State) : State :=
  let k := readAnswer s.ctl.ack s.ctl.last s.bte.idx s.bte.n
  let t := emit (.rd b k) { s with dr := b }
  { t with
    bte.buf := s.bte.buf.set i b
    bte.idx := i.succ
    hid.rxClosed := s.hid.rxClosed || k == .nack }

/-- DATA.RBYTE, step DP2 (41 R154). -/
def execDataRbyte (b : Byte) (s : State) : Host.Outcome State Fault Refusal :=
  match nextIndex s.bte.idx s.bte.n with
  | none => .next s
  | some i =>
    stepWhen (dataStepReady s && s.bte.dir && s.bpd.pc == .dataR && !s.hid.rxClosed) (takeByte i b s) s

end Sys2Proof.Machine
end

