-- ==== Sys2Proof/Machine/Environment.lean ====
section
/-! DEFINITION. The bus environment (43): EV1 to EV6. -/

namespace Sys2Proof.Machine

/-- ENV.START, step EV1 (43 R211). -/
def execEnvStart (s : State) : Host.Outcome State Fault Refusal :=
  stepWhen (s.ctl.start && !s.ctl.stop && !faultAny s)
    { emit .start s with ctl.start := false, sr.startSent := true, sr.master := true } s

/-- The address byte can go out (43 R212, R214). -/
def addressGoesOut (s : State) : Bool := s.hid.addrPending && s.sr.master && !s.ctl.stop && !faultAny s

/-- ENV.ADDR_ACK, step EV2 (43 R212). -/
def execEnvAddrAck (s : State) : Host.Outcome State Fault Refusal :=
  stepWhen (addressGoesOut s) { emit (.addr s.dr .ack) s with sr.addrAcked := true, hid.addrPending := false } s

/-- ENV.ADDR_NACK, step EV3 (43 R214): raises AckFailure. -/
def execEnvAddrNack (s : State) : Host.Outcome State Fault Refusal :=
  stepWhen (addressGoesOut s) (raiseFault .ackFailure { emit (.addr s.dr .nack) s with hid.addrPending := false }) s

/-- ENV.STOP, step EV4 (43 R215). Enabled whatever the fault flags say. -/
def execEnvStop (s : State) : Host.Outcome State Fault Refusal :=
  stepWhen s.ctl.stop (completeStop s) s

/-- A transaction is open and its stop not yet requested (43 R216, R217; D16). -/
def faultMayStrike (s : State) : Bool := (s.ctl.start || s.sr.master) && !s.ctl.stop

/-- ENV.BUS_ERROR, step EV5 (43 R216). -/
def execEnvBusError (s : State) : Host.Outcome State Fault Refusal :=
  stepWhen (faultMayStrike s) (raiseFault .busError s) s

/-- ENV.ARB_LOST, step EV6 (43 R217). -/
def execEnvArbLost (s : State) : Host.Outcome State Fault Refusal :=
  stepWhen (faultMayStrike s) (raiseFault .arbitrationLost s) s

end Sys2Proof.Machine
end

