-- ==== Sys2Proof/Machine/Messages.lean ====
section
/-! DEFINITION. The rows with a message format: REQ (42 R190, R191), RSP (42 R192, R193), WA (30_encoding R95, R96). -/

namespace Sys2Proof.Machine

/-- REQ.WRITE (42 R190): the message, kind 0x00, is offered to the request channel (PR1 or PR2); TS1 and the steps after it serve it. -/
def execReqWrite (k : Nat) (a n : Byte) (p : Buf) (s : State) : Host.Outcome State Fault Refusal :=
  .next (offer k ⟨0x00#8, a, n, p⟩ s)

/-- REQ.READ (42 R191): the message, kind 0x01, is offered to the request channel. -/
def execReqRead (k : Nat) (a n : Byte) (p : Buf) (s : State) : Host.Outcome State Fault Refusal :=
  .next (offer k ⟨0x01#8, a, n, p⟩ s)

/-- RSP.SUCCESS (42 R192): a Success response is given to producer `k` (PR3) while it is the front of the response channel. -/
def execRspSuccess (k : Nat) (n : Count) (b : Buf) (s : State) : Host.Outcome State Fault Refusal :=
  .next (receiveMessage k ⟨.success, n, b⟩ s)

/-- RSP.ERROR (42 R193): an Error response is given to producer `k` (PR3) while it is the front of the response channel. -/
def execRspError (k : Nat) (n : Count) (b : Buf) (s : State) : Host.Outcome State Fault Refusal :=
  .next (receiveMessage k ⟨.error, n, b⟩ s)

/-- WA.WRITE (30_encoding R95, R96): the BPD writes the address byte `{a, 0}` (BW3), `a` being the 7-bit address of the open command. -/
def execWaWrite (a : BitVec 7) (s : State) : Host.Outcome State Fault Refusal :=
  stepWhen (s.bpd.pc == .sendAddr && !s.bpd.rw && bpdGuard s && deviceAddress7 s.bpd.a == a) (writeAddressByte .wAmW s) s

/-- WA.READ (30_encoding R95, R96): the BPD writes the address byte `{a, 1}` (BR3), `a` being the 7-bit address of the open command. -/
def execWaRead (a : BitVec 7) (s : State) : Host.Outcome State Fault Refusal :=
  stepWhen (s.bpd.pc == .sendAddr && s.bpd.rw && bpdGuard s && deviceAddress7 s.bpd.a == a) (writeAddressByte .wAddrR s) s

end Sys2Proof.Machine
end

