-- ==== Sys2Proof/Machine/Scheduler.lean ====
section
/-! DEFINITION. The service loop of the TransferScheduler (42 section 3): TS1 to TS7. -/

namespace Sys2Proof.Machine

/-- The effect of TS1 on the front request (42 R177): latch it, zero the counts, open BEGINWRITE or BEGINREAD by its kind (30 R100). -/
def openRequest (r : TransferRequest) (rest : List TransferRequest) (s : State) : State :=
  let t := { s with ts.req := r, reqch := rest, bte.n := 0, bte.idx := 0, ts.pc := .tsAddr }
  orRefuse s (if isRead r then beginReadStart r.deviceAddress r.length t else beginWriteStart r.deviceAddress t)

/-- TS.DEQUEUE, step TS1 (42 R177). A request that is not admitted is refused (R175). -/
def execTsDequeue (s : State) : Host.Outcome State Fault Refusal :=
  match s.reqch with
  | [] => .next s
  | r :: rest =>
    stepWhen (s.ts.pc == .tsWait && s.bpd.inited) (if admitted r then openRequest r rest s else refuse s) s

/-- TS.ADDR_DONE, step TS2 (42 R178): BA1 with the request's length. -/
def execTsAddrDone (s : State) : Host.Outcome State Fault Refusal :=
  stepWhen (s.ts.pc == .tsAddr && inDataState s && !faultAny s)
    (orRefuse s ((armEngine s.ts.req.length s).map fun t => { t with ts.pc := .tsData })) s

/-- TS.ADDR_FAULT, step TS3 (42 R179). -/
def execTsAddrFault (s : State) : Host.Outcome State Fault Refusal :=
  stepWhen (s.ts.pc == .tsAddr && faultAny s && (s.par.faultExit || inDataState s)) (latchOutcome .error s) s

/-- TS.DATA_DONE, step TS4 (42 R180). -/
def execTsDataDone (s : State) : Host.Outcome State Fault Refusal :=
  stepWhen (s.ts.pc == .tsData && s.bte.idx == s.bte.n && !faultAny s) (latchOutcome .success s) s

/-- TS.DATA_FAULT, step TS5 (42 R181). -/
def execTsDataFault (s : State) : Host.Outcome State Fault Refusal :=
  stepWhen (s.ts.pc == .tsData && faultAny s) (latchOutcome .error s) s

/-- TS.FINISH, step TS6 (42 R182). -/
def execTsFinish (s : State) : Host.Outcome State Fault Refusal :=
  stepWhen (s.ts.pc == .tsFinish) (orRefuse s (finishTransaction s)) s

/-- TS.PUT, step TS7 (42 R184). -/
def execTsPut (s : State) : Host.Outcome State Fault Refusal :=
  stepWhen (s.ts.pc == .tsResp && decide (s.rspch.length < s.par.rspCap)) (putResponse s) s

end Sys2Proof.Machine
end

