-- ==== Sys2Proof/Machine/Dispatch.lean ====
section
/-! DEFINITION. The dispatch: one arm per constructor of Instr. -/

namespace Sys2Proof.Machine

def exec (i : Instr) (s : State) : Host.Outcome State Fault Refusal :=
  match i with
  | .reqWrite k a n p => Sys2Proof.Machine.execReqWrite k a n p s
  | .reqRead k a n p => Sys2Proof.Machine.execReqRead k a n p s
  | .rspSuccess k n b => Sys2Proof.Machine.execRspSuccess k n b s
  | .rspError k n b => Sys2Proof.Machine.execRspError k n b s
  | .cmdInit cfg => Sys2Proof.Machine.execCmdInit cfg s
  | .cmdBeginWrite st => Sys2Proof.Machine.execCmdBeginWrite st s
  | .cmdBeginRead st => Sys2Proof.Machine.execCmdBeginRead st s
  | .cmdEnd => Sys2Proof.Machine.execCmdEnd s
  | .waWrite a => Sys2Proof.Machine.execWaWrite a s
  | .waRead a => Sys2Proof.Machine.execWaRead a s
  | .chEnq k r => Sys2Proof.Machine.execChEnq k r s
  | .chEnqReject k r => Sys2Proof.Machine.execChEnqReject k r s
  | .chRecv k => Sys2Proof.Machine.execChRecv k s
  | .tsDequeue => Sys2Proof.Machine.execTsDequeue s
  | .tsAddrDone => Sys2Proof.Machine.execTsAddrDone s
  | .tsAddrFault => Sys2Proof.Machine.execTsAddrFault s
  | .tsDataDone => Sys2Proof.Machine.execTsDataDone s
  | .tsDataFault => Sys2Proof.Machine.execTsDataFault s
  | .tsFinish => Sys2Proof.Machine.execTsFinish s
  | .tsPut => Sys2Proof.Machine.execTsPut s
  | .bteArm n => Sys2Proof.Machine.execBteArm n s
  | .bteDisarm => Sys2Proof.Machine.execBteDisarm s
  | .dataWbyte answer => Sys2Proof.Machine.execDataWbyte answer s
  | .dataRbyte b => Sys2Proof.Machine.execDataRbyte b s
  | .envStart => Sys2Proof.Machine.execEnvStart s
  | .envAddrAck => Sys2Proof.Machine.execEnvAddrAck s
  | .envAddrNack => Sys2Proof.Machine.execEnvAddrNack s
  | .envStop => Sys2Proof.Machine.execEnvStop s
  | .envBusError => Sys2Proof.Machine.execEnvBusError s
  | .envArbLost => Sys2Proof.Machine.execEnvArbLost s

end Sys2Proof.Machine
end

