-- ==== Sys2Proof/Machine/Step.lean ====
section
/-! DEFINITION. One step of the machine: the next move of the agenda, or rest. -/

namespace Sys2Proof.Machine

/-- One step. Once `refused` is set the block is given no steps (30_encoding R104). With nothing on the agenda no agent moves and the block
rests (A1). Otherwise the next move leaves the agenda, is decoded and run. -/
def step (s : State) : Host.Outcome State Fault Refusal :=
  if s.refused then .refused .refusedMarkSet
  else
    match fetch s with
    | none => .next s
    | some (e, t) =>
      match decode e with
      | .ok i => exec i t
      | .error _ => .next (undecoded e t)

/-- `s` with a word of spec/opcode_table.json as the next move (A4, A5). A row without bits has no word. -/
def State.withFetchWord (s : State) (nbits w : Nat) : State :=
  if nbits = 0 then s else { s with agenda := stimulusOfWord nbits w :: s.agenda }

end Sys2Proof.Machine
end

