-- ==== Sys2Proof/Machine/Eeprom.lean ====
section
/-! DEFINITION. The one target the source names, as the fixture of 95_test_vectors section 5: premises F-1 to F-6 on the environment's
choices, not rules of the block. Its memory is a list of cells in one canonical form. -/

namespace Sys2Proof.Machine

/-- What an address that is not listed reads as. DESIGN CHOICE (A22): the fixture's initial content `M0` is a parameter, so any content can
be listed. -/
def Memory.unlisted : Byte := 0x00#8

/-- One byte of the target's memory. -/
def Memory.read : List Host.Cell → Nat → Byte
  | [], _ => Memory.unlisted
  | (b, v) :: m, a => if b = a then v else Memory.read m a

/-- Writes one byte, keeping the canonical form. -/
def Memory.write : List Host.Cell → Nat → Byte → List Host.Cell
  | [], a, v => if v = Memory.unlisted then [] else [(a, v)]
  | (b, w) :: m, a, v =>
    if a < b then (if v = Memory.unlisted then (b, w) :: m else (a, v) :: (b, w) :: m)
    else if a = b then (if v = Memory.unlisted then m else (a, v) :: m)
    else (b, w) :: Memory.write m a v

/-- Addresses from `lo` strictly rising, no entry equal to what an unlisted address reads as. -/
def Memory.wfFrom : Nat → List Host.Cell → Bool
  | _, [] => true
  | lo, (b, w) :: m => decide (lo ≤ b) && w != Memory.unlisted && Memory.wfFrom (b + 1) m

/-- The canonical form. -/
def Memory.wf (m : List Host.Cell) : Bool := Memory.wfFrom 0 m

/-- The fixture's state: EE_BASE, `mem[0..511]`, `ptr` (9 bits), `first` (95 section 5). -/
structure Eeprom where
  base : BitVec 7
  mem : List Host.Cell
  ptr : BitVec 9
  first : Bool
deriving DecidableEq, Repr

/-- F-1: the target answers its address byte when `DR[7:1]` is EE_BASE or EE_BASE + 1. -/
def Eeprom.answers (e : Eeprom) (wa : Byte) : Bool :=
  wa.extractLsb' 1 7 == e.base || wa.extractLsb' 1 7 == e.base + 1

/-- The next pointer inside the same page (F-3). -/
def Eeprom.nextInPage (ptr : BitVec 9) : BitVec 9 := ptr.extractLsb' 4 5 ++ (ptr.extractLsb' 0 4 + 1)

/-- F-2 to F-4: what a wire event does to the target. -/
def Eeprom.onEvent (e : Eeprom) : WireEvent → Eeprom
  | .start => e
  | .addr wa .ack => { e with ptr := BitVec.ofBool (wa.getLsbD 1) ++ e.ptr.extractLsb' 0 8, first := true }
  | .addr _ .nack => e
  | .wr b .ack =>
    if e.first then { e with ptr := e.ptr.extractLsb' 8 1 ++ b, first := false }
    else { e with mem := Memory.write e.mem e.ptr.toNat b, ptr := Eeprom.nextInPage e.ptr }
  | .wr _ .nack => e
  | .rd _ _ => { e with ptr := e.ptr + 1 }
  | .stop => e

/-- F-1, F-3, F-4, F-6: whether the environment may make the choice `i` with this target on the bus. -/
def Eeprom.allows (e : Eeprom) (s : State) (i : Instr) : Bool :=
  match i with
  | .envAddrAck => e.answers s.dr
  | .envAddrNack => !e.answers s.dr
  | .dataWbyte answer => answer == .ack
  | .dataRbyte b => b == Memory.read e.mem e.ptr.toNat
  | .envBusError => false
  | .envArbLost => false
  | .reqWrite _ _ _ _ => true
  | .reqRead _ _ _ _ => true
  | .rspSuccess _ _ _ => true
  | .rspError _ _ _ => true
  | .cmdInit _ => true
  | .cmdBeginWrite _ => true
  | .cmdBeginRead _ => true
  | .cmdEnd => true
  | .waWrite _ => true
  | .waRead _ => true
  | .chEnq _ _ => true
  | .chEnqReject _ _ => true
  | .chRecv _ => true
  | .tsDequeue => true
  | .tsAddrDone => true
  | .tsAddrFault => true
  | .tsDataDone => true
  | .tsDataFault => true
  | .tsFinish => true
  | .tsPut => true
  | .bteArm _ => true
  | .bteDisarm => true
  | .envStart => true
  | .envStop => true

/-- The block with the EEPROM on its bus. -/
structure Bench where
  block : State
  target : Eeprom
deriving DecidableEq, Repr

/-- One step of the block that the fixture allows, the target seeing the new wire events; none where the fixture forbids the move, where
the agenda is empty or where the block gives no next state. -/
def Bench.step (b : Bench) : Option Bench :=
  match fetch b.block with
  | none => none
  | some (e, t) =>
    match decode e with
    | .error _ => none
    | .ok i =>
      if b.target.allows t i then
        match Sys2Proof.Machine.step b.block with
        | .next u => some ⟨u, (u.trace.drop b.block.trace.length).foldl Eeprom.onEvent b.target⟩
        | .fault _ => none
        | .refused _ => none
      else none

/-- `n` steps of the bench. -/
def Bench.run : Nat → Bench → Option Bench
  | 0, b => some b
  | n + 1, b => (Bench.step b).bind (Bench.run n)

/-- `dev(off)`, the device address that carries offset bit 8 (30_encoding R107; D32), as an 8-bit operand. -/
def Eeprom.deviceFor (e : Eeprom) (off : BitVec 9) : Byte := 0#1 ++ (e.base ||| (off.extractLsb' 8 1).zeroExtend 7)

end Sys2Proof.Machine
end

