-- ==== Sys2Proof/Safety.lean ====
section
/-! DEFINITION. The terms claims are stated in: agents and ownership (60 Table 60-3), quiescence (70 R289), the wire framing (43 R220), the
pairing of requests and responses (42 R185), the invariant, reachability, and the move sequences of whole transactions (42 R190, R191). -/

namespace Sys2Proof.Machine

/-! ### Agents and ownership -/

/-- The agents (00_scope R8). -/
inductive Agent
  | prod
  | ts
  | bpd
  | bte
  | env
deriving DecidableEq, Repr

/-- The agent that takes a step (00_scope R8; 30_encoding Table 30-5). The data steps are taken by the BTE with ENV. -/
def agentOf : Instr → Agent
  | .reqWrite _ _ _ _ => .prod
  | .reqRead _ _ _ _ => .prod
  | .rspSuccess _ _ _ => .prod
  | .rspError _ _ _ => .prod
  | .cmdInit _ => .prod
  | .cmdBeginWrite st => if st.isFirst then .ts else .bpd
  | .cmdBeginRead st => if st.isFirst then .ts else .bpd
  | .cmdEnd => .ts
  | .waWrite _ => .bpd
  | .waRead _ => .bpd
  | .chEnq _ _ => .prod
  | .chEnqReject _ _ => .prod
  | .chRecv _ => .prod
  | .tsDequeue => .ts
  | .tsAddrDone => .ts
  | .tsAddrFault => .ts
  | .tsDataDone => .ts
  | .tsDataFault => .ts
  | .tsFinish => .ts
  | .tsPut => .ts
  | .bteArm _ => .ts
  | .bteDisarm => .ts
  | .dataWbyte _ => .bte
  | .dataRbyte _ => .bte
  | .envStart => .env
  | .envAddrAck => .env
  | .envAddrNack => .env
  | .envStop => .env
  | .envBusError => .env
  | .envArbLost => .env

/-- A step that TS takes only inside another of its steps: BW1 and BR1 in TS1, BA1 in TS2, BA2 and ET1 in TS6 (42 R176, R177, R178, R182). -/
def innerStep : Instr → Bool
  | .reqWrite _ _ _ _ => false
  | .reqRead _ _ _ _ => false
  | .rspSuccess _ _ _ => false
  | .rspError _ _ _ => false
  | .cmdInit _ => false
  | .cmdBeginWrite st => st.isFirst
  | .cmdBeginRead st => st.isFirst
  | .cmdEnd => true
  | .waWrite _ => false
  | .waRead _ => false
  | .chEnq _ _ => false
  | .chEnqReject _ _ => false
  | .chRecv _ => false
  | .tsDequeue => false
  | .tsAddrDone => false
  | .tsAddrFault => false
  | .tsDataDone => false
  | .tsDataFault => false
  | .tsFinish => false
  | .tsPut => false
  | .bteArm _ => true
  | .bteDisarm => true
  | .dataWbyte _ => false
  | .dataRbyte _ => false
  | .envStart => false
  | .envAddrAck => false
  | .envAddrNack => false
  | .envStop => false
  | .envBusError => false
  | .envArbLost => false

/-- A move that some agent may make by itself: ownership is kept (60 R255, Table 60-3). A bare inner command is nobody's to issue. -/
def Owned (e : Stimulus) : Bool :=
  match decode e with
  | .ok i => !innerStep i
  | .error _ => true

/-! ### Guards in the spec's words -/

/-- `¬fault_any` (10_state R35). -/
def NoFault (s : State) : Prop := s.sr.ackFail = false ∧ s.sr.busErr = false ∧ s.sr.arbLost = false

/-- The guard `G = (ts.pc == TS_ADDR) ∧ (FAULT_EXIT → ¬fault_any)` (40 R120). -/
def GuardG (s : State) : Prop := s.ts.pc = .tsAddr ∧ (s.par.faultExit = true → NoFault s)

/-- The situation is refused: the sticky mark is set, there is no fault, no response and no wire event (30_encoding R104). -/
def IsRefused (s : State) (o : Host.Outcome State Fault Refusal) : Prop :=
  ∃ t, o = .next t ∧ t.refused = true ∧ t.sr = s.sr ∧ t.rspch = s.rspch ∧ t.trace = s.trace

/-! ### Quiescence -/

/-- The block is quiescent (70 R289). -/
structure Quiescent (s : State) : Prop where
  reqch : s.reqch = []
  rspch : s.rspch = []
  tsPc : s.ts.pc = .tsWait
  bpdPc : s.bpd.pc = .ready
  start : s.ctl.start = false
  stop : s.ctl.stop = false
  armed : s.bte.armed = false
  flags : s.sr = ⟨false, false, false, false, false, false⟩
  addrPending : s.hid.addrPending = false

/-! ### Framing -/

/-- Where a frame of the wire stands (43 R220). -/
inductive FrameState
  | free
  | started
  | addrRefused
  | writing
  | writeRefused
  | reading
  | readClosed
deriving DecidableEq, Repr

/-- The framing grammar of 43 R220, one event at a time; none where the grammar forbids the event. A start opens a frame; in an open frame
it means that the frame before was cut by a lost arbitration. -/
def frameNext (f : FrameState) (e : WireEvent) : Option FrameState :=
  match f, e with
  | _, .start => some .started
  | .started, .addr b .ack => some (if b.getLsbD 0 then .reading else .writing)
  | .started, .addr _ .nack => some .addrRefused
  | .writing, .wr _ .ack => some .writing
  | .writing, .wr _ .nack => some .writeRefused
  | .reading, .rd _ .ack => some .reading
  | .reading, .rd _ .nack => some .readClosed
  | .free, .stop => none
  | _, .stop => some .free
  | _, _ => none

/-- The frame state after a trace that began on a free bus; none if the trace is not framed. -/
def frameAfter (t : List WireEvent) : Option FrameState :=
  t.foldl (fun f e => f.bind fun x => frameNext x e) (some .free)

/-! ### Requests and responses -/

/-- The requests accepted so far, in order (42 R172). -/
def acceptedRequests (ns : List ProducerNote) : List TransferRequest :=
  ns.filterMap fun n => match n with
    | .accepted _ r => some r
    | .rejected _ _ => none
    | .received _ _ => none

/-- The responses given to producers so far, in order (42 R174). -/
def receivedResponses (ns : List ProducerNote) : List TransferResponse :=
  ns.filterMap fun n => match n with
    | .accepted _ _ => none
    | .rejected _ _ => none
    | .received _ q => some q

/-- The request between TS1 and TS7, if there is one (42 R176). -/
def inService (s : State) : List TransferRequest :=
  match s.ts.pc with
  | .tsWait => []
  | _ => [s.ts.req]

/-- The length laws of a response to a request (42 R186). -/
def Answers (r : TransferRequest) (q : TransferResponse) : Prop :=
  q.length.val ≤ r.length.toNat ∧ (q.status = .success → q.length.val = r.length.toNat)

/-- Exactly one response per accepted request, in order (42 R185): the accepted requests are those already answered, then the one in
service, then those waiting; the answered ones pair off in order with the responses given or waiting. -/
def PairedInOrder (s : State) : Prop :=
  ∃ served, acceptedRequests s.told = served ++ inService s ++ s.reqch ∧
    List.Forall₂ Answers served (receivedResponses s.told ++ s.rspch)

/-! ### The invariant -/

/-- TS waits for a request or for room: no command is open (10_state R52 a, b, e to h). -/
def AtRest (s : State) : Prop := s.ts.pc = .tsWait ∨ s.ts.pc = .tsResp

/-- `bpd.pc` is one of the micro-states of the address phase of a read after the address byte. -/
def readPhase (p : BpdPc) : Bool := p == .wAddrR || p == .cfgAck || p == .wMslR || p == .dataR

/-- `bpd.pc` is one of the micro-states of a write after the address byte. -/
def writePhase (p : BpdPc) : Bool := p == .wAmW || p == .dataW

/-- The frame a block that is master and has met no fault must stand in, given its state (43 R220). -/
def frameExpected (s : State) : Option FrameState :=
  match s.bpd.pc with
  | .ready => none
  | .wSb => if s.sr.startSent then some .started else none
  | .sendAddr => some .started
  | .wAmW => if s.hid.addrPending then some .started else some .writing
  | .wAddrR => if s.hid.addrPending then some .started else some .reading
  | .cfgAck => some .reading
  | .wMslR => some .reading
  | .dataW => some .writing
  | .dataR => if s.hid.rxClosed then some .readClosed else some .reading

/-- What holds of the block between steps while nothing has been refused. It contains 10_state R52 and what makes it inductive. -/
structure CoreInv (s : State) : Prop where
  rest : AtRest s → s.bpd.pc = .ready ∧ s.bte.armed = false ∧ faultAny s = false ∧ s.ctl.start = false ∧
    s.sr.startSent = false ∧ s.sr.addrAcked = false ∧ s.hid.addrPending = false ∧ (s.sr.master = true → s.ctl.stop = true)
  service : ¬ AtRest s → s.bpd.pc ≠ .ready ∧ s.bpd.inited = true ∧ admitted s.ts.req = true ∧
    s.bpd.rw = isRead s.ts.req ∧ s.bpd.a = s.ts.req.deviceAddress ∧
    (isRead s.ts.req = true → operandCount s.ts.req.length = some s.bpd.size)
  inited : (s.bpd.inited = true → s.ctl.bteEn = true ∧ s.ctl.last = true) ∧ (s.bpd.inited = false → s.ts.pc = .tsWait)
  addrPhase : s.ts.pc = .tsAddr → s.bte.armed = false ∧ s.bte.n = 0 ∧ s.bte.idx = 0 ∧
    (s.bpd.rw = true → s.hid.rxClosed = false)
  dataPhase : s.ts.pc = .tsData → s.bte.armed = true ∧ inDataState s = true ∧
    operandCount s.ts.req.length = some s.bte.n ∧ s.bte.dir = s.bpd.rw ∧
    (s.bpd.rw = true → (s.hid.rxClosed = true ↔ s.bte.idx = s.bte.n))
  finish : s.ts.pc = .tsFinish →
    (s.ts.status = .success ∧ operandCount s.ts.req.length = some s.bte.n ∧ s.bte.idx = s.bte.n) ∨
    (s.ts.status = .error ∧ ((s.bte.n = 0 ∧ s.bte.idx = 0) ∨ operandCount s.ts.req.length = some s.bte.n))
  response : s.ts.pc = .tsResp → Answers s.ts.req s.ts.rsp
  count : s.bte.idx ≤ s.bte.n
  startBit : s.ctl.start = true → s.bpd.pc = .wSb ∧ s.sr.startSent = false ∧ (s.sr.master = true → s.ctl.stop = true)
  startSent : s.sr.startSent = true → s.bpd.pc = .wSb ∨ s.bpd.pc = .sendAddr
  addrPending : s.hid.addrPending = true →
    (s.bpd.pc = .wAmW ∨ s.bpd.pc = .wAddrR) ∧ s.dr = wireByte s.bpd.a s.bpd.rw ∧ s.sr.addrAcked = false
  addrAcked : s.sr.addrAcked = true → s.bpd.pc = .wAmW ∨ s.bpd.pc = .wAddrR ∨ s.bpd.pc = .cfgAck ∨ s.bpd.pc = .wMslR
  stopBit : s.ctl.stop = true → faultAny s = false ∧
    (AtRest s ∨ (s.ts.pc = .tsAddr ∧ s.bpd.pc = .wSb ∧ s.ctl.start = true))
  direction : (writePhase s.bpd.pc = true → s.bpd.rw = false) ∧ (readPhase s.bpd.pc = true → s.bpd.rw = true)
  ackBit : s.bpd.pc = .wMslR ∨ s.bpd.pc = .dataR → s.ctl.ack = ackBit s.bpd.size
  room : s.reqch.length ≤ s.par.reqCap ∧ s.rspch.length ≤ s.par.rspCap
  paired : PairedInOrder s
  framed : ∃ f, frameAfter s.trace = some f ∧ (s.sr.master = true → f ≠ .free) ∧
    (s.sr.master = true → faultAny s = false → ∀ g, frameExpected s = some g → f = g)

/-- The invariant every step keeps: the moves to come respect ownership, and unless the sticky mark is set `CoreInv` holds. -/
def Inv (s : State) : Prop := (∀ e ∈ s.agenda, Owned e = true) ∧ (s.refused = false → CoreInv s)

/-- The states a run from reset meets, for any parameters and any agenda that respects ownership (70 R283). -/
inductive Reachable : State → Prop
  | launch (p : Params) (agenda : List Stimulus) (h : ∀ e ∈ agenda, Owned e = true) :
      Reachable { State.reset with par := p, agenda := agenda }
  | step (s t : State) (h : Reachable s) (hs : Sys2Proof.Machine.step s = .next t) : Reachable t

/-! ### Waits that hang -/

/-- The BPD waits for a flag that is not set: the waits BW2, BW4, BR2, BR4, BR6 (40 R125). -/
def bpdWaits (s : State) : Bool :=
  match s.bpd.pc with
  | .wSb => !s.sr.startSent
  | .wAmW => !(s.sr.addrAcked && s.sr.master)
  | .wAddrR => !s.sr.addrAcked
  | .wMslR => !s.sr.master
  | _ => false

/-- The BPD waits in an address phase and no fault flag is set (40 R125). -/
def BpdStuck (s : State) : Prop := s.ts.pc = .tsAddr ∧ NoFault s ∧ bpdWaits s = true

/-- A data phase is open, not complete, and no fault flag is set (43 R219). -/
def DataStuck (s : State) : Prop := s.ts.pc = .tsData ∧ NoFault s ∧ s.bte.idx ≠ s.bte.n

/-- The moves to come are none of ENV's, alone or with the BTE, and none is a bare inner command (43 R219, R210). -/
def NoEnvMoves (agenda : List Stimulus) : Prop :=
  ∀ e ∈ agenda, ∀ i, decode e = .ok i → agentOf i ≠ .env ∧ agentOf i ≠ .bte ∧ innerStep i = false

/-! ### Whole transactions -/

/-- A step that no bits select, as a move. -/
abbrev move (i : Instr) : Stimulus := .step i

/-- The moves of a Write that meets no fault (42 R190), EV4 taken after TS7. -/
def writeMoves (k : Nat) (r : TransferRequest) : List Stimulus :=
  [move (.chEnq k r), move .tsDequeue, move .envStart, move (.cmdBeginWrite .bw2), move (.cmdBeginWrite .bw3), move .envAddrAck,
    move (.cmdBeginWrite .bw4), move .tsAddrDone] ++
  List.replicate r.length.toNat (move (.dataWbyte .ack)) ++
  [move .tsDataDone, move .tsFinish, move .tsPut, move .envStop, move (.chRecv k)]

/-- The moves of a Read that meets no fault, the target sending `bytes` (42 R191). -/
def readMoves (k : Nat) (r : TransferRequest) (bytes : List Byte) : List Stimulus :=
  [move (.chEnq k r), move .tsDequeue, move .envStart, move (.cmdBeginRead .br2), move (.cmdBeginRead .br3), move .envAddrAck,
    move (.cmdBeginRead .br4), move (.cmdBeginRead .br5), move (.cmdBeginRead .br6), move .tsAddrDone] ++
  bytes.map (fun b => move (.dataRbyte b)) ++
  [move .tsDataDone, move .tsFinish, move .tsPut, move .envStop, move (.chRecv k)]

/-- The first `n` bytes of a buffer. -/
def firstBytes (n : Nat) (b : Buf) : List Byte := b.toList.take n

/-- The wire events of a Write that succeeds (42 R190, 43 R220). -/
def writeFrame (r : TransferRequest) : List WireEvent :=
  [.start, .addr (wireByte r.deviceAddress false) .ack] ++
  (firstBytes r.length.toNat r.payload).map (fun b => .wr b .ack) ++ [.stop]

/-- The wire events of a Read that succeeds: every byte but the last is answered ACK, the last NACK (42 R191, 43 R220). -/
def readFrame (r : TransferRequest) (bytes : List Byte) : List WireEvent :=
  [.start, .addr (wireByte r.deviceAddress true) .ack] ++
  bytes.dropLast.map (fun b => .rd b .ack) ++ (bytes.drop (bytes.length - 1)).map (fun b => .rd b .nack) ++ [.stop]

/-- The moves of the address phase of a request, up to the address byte (42 R190, R191). -/
def openMoves (k : Nat) (r : TransferRequest) : List Stimulus :=
  [move (.chEnq k r), move .tsDequeue, move .envStart] ++
  (if isRead r then [move (.cmdBeginRead .br2), move (.cmdBeginRead .br3)]
    else [move (.cmdBeginWrite .bw2), move (.cmdBeginWrite .bw3)])

/-- The moves that end a request whose fault TS observes by `observe` (60 R246). -/
def abortMoves (k : Nat) (observe : Instr) : List Stimulus :=
  [move observe, move .tsFinish, move .tsPut, move .envStop, move (.chRecv k)]

/-- The moves of a request whose address byte is answered NACK (42 R190, R191). -/
def addressNackMoves (k : Nat) (r : TransferRequest) : List Stimulus :=
  openMoves k r ++ [move .envAddrNack] ++ abortMoves k .tsAddrFault

/-- The moves of a Write whose byte number `j` is answered NACK (42 R190). -/
def byteNackMoves (k : Nat) (r : TransferRequest) (j : Nat) : List Stimulus :=
  openMoves k r ++ [move .envAddrAck, move (.cmdBeginWrite .bw4), move .tsAddrDone] ++
  List.replicate j (move (.dataWbyte .ack)) ++ [move (.dataWbyte .nack)] ++ abortMoves k .tsDataFault

/-- The moves of a Read that `fault` (EV5 or EV6) cuts after the bytes `bytes` (42 R191). -/
def cutReadMoves (k : Nat) (r : TransferRequest) (bytes : List Byte) (fault : Instr) : List Stimulus :=
  openMoves k r ++
  [move .envAddrAck, move (.cmdBeginRead .br4), move (.cmdBeginRead .br5), move (.cmdBeginRead .br6), move .tsAddrDone] ++
  bytes.map (fun b => move (.dataRbyte b)) ++ [move fault] ++ abortMoves k .tsDataFault

/-- The wire events of the data phase so far (41 R157): the bytes `bte.buf[0..idx-1]`, written and acknowledged, or received and
answered ACK but for the last of `n`. -/
def dataEvents (s : State) : List WireEvent :=
  if s.bte.dir then
    (List.range s.bte.idx.val).map fun i => .rd (s.bte.buf.toList.getD i 0) (if i + 1 = s.bte.n.val then .nack else .ack)
  else (firstBytes s.bte.idx.val s.bte.buf).map fun b => .wr b .ack

/-- The moves that serve one request with no fault, the target sending `bytes` to a Read. -/
def serveMoves (k : Nat) (r : TransferRequest) (bytes : List Byte) : List Stimulus :=
  if isRead r then readMoves k r bytes else writeMoves k r

/-- The one-at-a-time discipline: each request's response is received before the next request is sent (20_memory R75). -/
def oneAtATime (k : Nat) (jobs : List (TransferRequest × List Byte)) : List Stimulus :=
  jobs.flatMap fun j => serveMoves k j.1 j.2

/-- A job the fault-free moves serve: an admitted request, and for a Read as many bytes as it asks for. -/
def JobOk (j : TransferRequest × List Byte) : Prop :=
  admitted j.1 = true ∧ (isRead j.1 = true → j.2.length = j.1.length.toNat)

/-- The response to a job: Success, the request's length, and for a Read the bytes the target sent (42 R190, R191). -/
def JobAnswered (j : TransferRequest × List Byte) (q : TransferResponse) : Prop :=
  q.status = .success ∧ q.length.val = j.1.length.toNat ∧ (isRead j.1 = true → firstBytes q.length.val q.buffer = j.2)

/-- The block is initialised, at rest, and a producer `k` can use it (70 R283, R289). -/
structure ReadyFor (k : Nat) (s : State) : Prop where
  quiescent : Quiescent s
  inited : s.bpd.inited = true
  bteEn : s.ctl.bteEn = true
  last : s.ctl.last = true
  notRefused : s.refused = false
  reqCap : 1 ≤ s.par.reqCap
  rspCap : 1 ≤ s.par.rspCap
  producer : k < s.par.nProducers

/-! ### The EEPROM's convention (20_memory R62, 30_encoding R107) -/

/-- `EESET off`: a Write of one byte, the low offset byte. -/
def eesetRequest (e : Eeprom) (off : BitVec 9) : TransferRequest :=
  ⟨0x00#8, e.deviceFor off, 1#8, Buf.zero.set 0 (off.extractLsb' 0 8)⟩

/-- `EEWR off, data`: a Write of the low offset byte and then the data. -/
def eewrRequest (e : Eeprom) (off : BitVec 9) (data : List Byte) : TransferRequest :=
  ⟨0x00#8, e.deviceFor off, BitVec.ofNat 8 (data.length + 1),
    Vector.ofFn fun i => if i.val = 0 then off.extractLsb' 0 8 else data.getD (i.val - 1) 0⟩

/-- `RD dev(off), n`. -/
def eerdRequest (e : Eeprom) (off : BitVec 9) (n : Byte) : TransferRequest := ⟨0x01#8, e.deviceFor off, n, .zero⟩

/-- The bytes stored at `off .. off + n - 1`, indices mod 512. -/
def storedBytes (e : Eeprom) (off : BitVec 9) (n : Nat) : List Byte :=
  (List.range n).map fun i => Memory.read e.mem ((off.toNat + i) % Config.eepromCap)

/-- `EERD off, n` with the bytes the target holds: `EESET off ; RD dev(off), n`. -/
def eerdMoves (k : Nat) (e : Eeprom) (off : BitVec 9) (n : Byte) : List Stimulus :=
  writeMoves k (eesetRequest e off) ++ readMoves k (eerdRequest e off n) (storedBytes e off n.toNat)

end Sys2Proof.Machine
end

