-- ==== Sys2Proof/Certificates/Slice0/Obligations.lean ====
section
/-! DEFINITION. The statements for the provers. A step's effect is written out in full, `exec i s = .next t` with `t` as the rule gives it
and every other item as in `s`: it says that the step completes, what it writes, and that it writes nothing else. -/

open Sys2Proof Sys2Proof.Machine

/-! ### The driver (40) -/

/-- 40 R121: IN1, and its command word: it stores the configuration and enables the assist and the automation; a second INIT, or one with
another configuration, is refused. -/
def Obligations.InitStoresConfiguration : Prop :=
  ∀ (c : CfgRecord) (a z : Byte) (s : State),
    (c.busSpeed = .fastMode400kHz → c.analogFilter = true → c.digitalFilter = false →
      decode (.command [0x00#8, a, z] c) = .ok (.cmdInit c)) ∧
    (c.busSpeed = .fastMode400kHz → c.analogFilter = true → c.digitalFilter = false →
      s.bpd.inited = false → s.bpd.pc = .ready → s.ts.pc = .tsWait →
      exec (.cmdInit c) s = .next { s with cfg := c, ctl.bteEn := true, ctl.last := true, bpd.inited := true }) ∧
    (s.bpd.inited = true ∨ c.busSpeed ≠ .fastMode400kHz ∨ c.analogFilter = false ∨ c.digitalFilter = true →
      IsRefused s (exec (.cmdInit c) s))

/-- 40 R122: BW1 to BW4, and the command word of `beginWrite`. -/
def Obligations.BeginWriteSteps : Prop :=
  (∀ (a z : Byte) (c : CfgRecord), decode (.command [0x01#8, a, z] c) = .ok (.cmdBeginWrite (.bw1 a))) ∧
  ∀ (a : Byte) (s : State),
    (s.bpd.inited = true → s.bpd.pc = .ready →
      exec (.cmdBeginWrite (.bw1 a)) s =
        .next { s with bpd.rw := false, bpd.a := a, ctl.start := true, bpd.pc := .wSb }) ∧
    (s.bpd.pc = .wSb → s.bpd.rw = false → s.sr.startSent = true → GuardG s →
      exec (.cmdBeginWrite .bw2) s = .next { s with bpd.pc := .sendAddr }) ∧
    (s.bpd.pc = .sendAddr → s.bpd.rw = false → GuardG s →
      exec (.cmdBeginWrite .bw3) s =
        .next { s with dr := s.bpd.a.extractLsb' 0 7 ++ 0#1, sr.startSent := false, hid.addrPending := true, bpd.pc := .wAmW }) ∧
    (s.bpd.pc = .wAmW → s.sr.addrAcked = true → s.sr.master = true → GuardG s →
      exec (.cmdBeginWrite .bw4) s = .next { s with sr.addrAcked := false, bpd.pc := .dataW })

/-- 40 R123: BR1 to BR6, and the command word of `beginRead`. -/
def Obligations.BeginReadSteps : Prop :=
  (∀ (a n : Byte) (c : CfgRecord), 1 ≤ n.toNat → n.toNat ≤ 16 →
    decode (.command [0x02#8, a, n] c) = .ok (.cmdBeginRead (.br1 a n))) ∧
  ∀ (a n : Byte) (size : Count) (s : State),
    (s.bpd.inited = true → s.bpd.pc = .ready → 1 ≤ n.toNat → size.val = n.toNat →
      exec (.cmdBeginRead (.br1 a n)) s =
        .next { s with bpd.rw := true, bpd.a := a, bpd.size := size, hid.rxClosed := false, ctl.start := true, bpd.pc := .wSb }) ∧
    (s.bpd.inited = true → s.bpd.pc = .ready → n.toNat = 0 ∨ 16 < n.toNat → IsRefused s (exec (.cmdBeginRead (.br1 a n)) s)) ∧
    (s.bpd.pc = .wSb → s.bpd.rw = true → s.sr.startSent = true → GuardG s →
      exec (.cmdBeginRead .br2) s = .next { s with bpd.pc := .sendAddr }) ∧
    (s.bpd.pc = .sendAddr → s.bpd.rw = true → GuardG s →
      exec (.cmdBeginRead .br3) s =
        .next { s with dr := s.bpd.a.extractLsb' 0 7 ++ 1#1, sr.startSent := false, hid.addrPending := true, bpd.pc := .wAddrR }) ∧
    (s.bpd.pc = .wAddrR → s.sr.addrAcked = true → GuardG s →
      exec (.cmdBeginRead .br4) s = .next { s with bpd.pc := .cfgAck }) ∧
    (s.bpd.pc = .cfgAck → GuardG s →
      exec (.cmdBeginRead .br5) s = .next { s with ctl.ack := decide (s.bpd.size.val ≠ 1), bpd.pc := .wMslR }) ∧
    (s.bpd.pc = .wMslR → s.sr.master = true → GuardG s →
      exec (.cmdBeginRead .br6) s = .next { s with sr.addrAcked := false, bpd.pc := .dataR })

/-- 40 R124: ET1 requests the stop, withdraws a pending start and returns to READY; in READY it is refused; TS, which issues it in
TS_FINISH, never issues it while a stop is still requested. -/
def Obligations.EndRequestsStop : Prop :=
  (∀ (a z : Byte) (c : CfgRecord), decode (.command [0x03#8, a, z] c) = .ok .cmdEnd) ∧
  (∀ s : State, Reachable s → s.refused = false → s.ts.pc = .tsFinish → s.ctl.stop = false) ∧
  ∀ s : State,
    (s.bpd.inited = true → s.bpd.pc ≠ .ready →
      exec .cmdEnd s = .next { s with ctl.stop := true, ctl.start := false, bpd.pc := .ready }) ∧
    (s.bpd.pc = .ready → IsRefused s (exec .cmdEnd s))

/-- 30 R96: the address byte is `((a8 & 0x7F) << 1) | rw`, the same as `(a8 << 1) | rw` in 8 bits; bit 7 of `a8` does not matter. -/
def Obligations.AddressByteAssembly : Prop :=
  ∀ (a8 : Byte) (rw : Bool),
    (wireByte a8 rw).toNat = a8.toNat % 128 * 2 + rw.toNat ∧
    wireByte a8 rw = ((a8 &&& 0x7F#8) <<< 1) ||| (BitVec.ofBool rw).zeroExtend 8 ∧
    wireByte a8 rw = (a8 <<< 1) ||| (BitVec.ofBool rw).zeroExtend 8 ∧
    (wireByte a8 rw).getLsbD 0 = rw ∧
    wireByte (a8 ||| 0x80#8) rw = wireByte (a8 &&& 0x7F#8) rw

/-- The rows WA.WRITE and WA.READ: the model reads them as the BPD's write of that address byte (BW3, BR3), when the byte's address is the
open command's (the model's reading, A12; the byte itself is 30 R95). A byte with another address is not the one the BPD writes. -/
def Obligations.WireAddressRows : Prop :=
  ∀ (a : BitVec 7) (s : State),
    decode (.message .wire [a ++ 0#1]) = .ok (.waWrite a) ∧ decode (.message .wire [a ++ 1#1]) = .ok (.waRead a) ∧
    (s.bpd.pc = .sendAddr → s.bpd.rw = false → GuardG s → s.bpd.a.extractLsb' 0 7 = a →
      exec (.waWrite a) s = .next { s with dr := a ++ 0#1, sr.startSent := false, hid.addrPending := true, bpd.pc := .wAmW }) ∧
    (s.bpd.pc = .sendAddr → s.bpd.rw = true → GuardG s → s.bpd.a.extractLsb' 0 7 = a →
      exec (.waRead a) s = .next { s with dr := a ++ 1#1, sr.startSent := false, hid.addrPending := true, bpd.pc := .wAddrR }) ∧
    (s.bpd.a.extractLsb' 0 7 ≠ a → exec (.waWrite a) s = .next s ∧ exec (.waRead a) s = .next s)

/-- A BPD step whose `pre` is false does not happen: the model's step leaves the state as it is (00 R13; the model's reading, A2, A18). The WA
rows stand for BW3 and BR3, with their `pre` (the model's reading, A12). -/
def Obligations.DriverWaits : Prop :=
  ∀ (c : CfgRecord) (s : State),
    (¬(s.bpd.pc = .wSb ∧ s.bpd.rw = false ∧ s.sr.startSent = true ∧ GuardG s) → exec (.cmdBeginWrite .bw2) s = .next s) ∧
    (¬(s.bpd.pc = .sendAddr ∧ s.bpd.rw = false ∧ GuardG s) →
      exec (.cmdBeginWrite .bw3) s = .next s ∧ ∀ a, exec (.waWrite a) s = .next s) ∧
    (¬(s.bpd.pc = .wAmW ∧ s.sr.addrAcked = true ∧ s.sr.master = true ∧ GuardG s) → exec (.cmdBeginWrite .bw4) s = .next s) ∧
    (¬(s.bpd.pc = .wSb ∧ s.bpd.rw = true ∧ s.sr.startSent = true ∧ GuardG s) → exec (.cmdBeginRead .br2) s = .next s) ∧
    (¬(s.bpd.pc = .sendAddr ∧ s.bpd.rw = true ∧ GuardG s) →
      exec (.cmdBeginRead .br3) s = .next s ∧ ∀ a, exec (.waRead a) s = .next s) ∧
    (¬(s.bpd.pc = .wAddrR ∧ s.sr.addrAcked = true ∧ GuardG s) → exec (.cmdBeginRead .br4) s = .next s) ∧
    (¬(s.bpd.pc = .cfgAck ∧ GuardG s) → exec (.cmdBeginRead .br5) s = .next s) ∧
    (¬(s.bpd.pc = .wMslR ∧ s.sr.master = true ∧ GuardG s) → exec (.cmdBeginRead .br6) s = .next s) ∧
    (s.bpd.inited = false → c.busSpeed = .fastMode400kHz → c.analogFilter = true → c.digitalFilter = false →
      ¬(s.bpd.pc = .ready ∧ s.ts.pc = .tsWait) → exec (.cmdInit c) s = .next s)

/-- 30 R103: the refusals of the command interface, a reserved `op` among them (as the next move of the agenda). -/
def Obligations.CommandRefusals : Prop :=
  ∀ (c : CfgRecord) (op a n : Byte) (rest : List Stimulus) (s : State),
    (4 ≤ op.toNat → s.refused = false → s.agenda = .command [op, a, n] c :: rest → IsRefused s (step s)) ∧
    (s.bpd.inited = true ∨ c.busSpeed ≠ .fastMode400kHz ∨ c.analogFilter = false ∨ c.digitalFilter = true →
      IsRefused s (exec (.cmdInit c) s)) ∧
    (s.bpd.inited = false ∨ s.bpd.pc ≠ .ready →
      IsRefused s (exec (.cmdBeginWrite (.bw1 a)) s) ∧ IsRefused s (exec (.cmdBeginRead (.br1 a n)) s)) ∧
    (n.toNat = 0 ∨ 16 < n.toNat → IsRefused s (exec (.cmdBeginRead (.br1 a n)) s)) ∧
    (s.bpd.inited = false ∨ s.bpd.pc = .ready → IsRefused s (exec .cmdEnd s))

/-! ### The data phase (41) -/

/-- 41 R152: BA1 in either direction; without `initialize`, or with a count outside 1 to 16, it is refused, which cannot arise from TS2. It is
refused too with the engine already armed and outside DATA_W and DATA_R (93 U6). R155: BA2 clears `bte.armed` and nothing else. -/
def Obligations.EngineArmedDisarmed : Prop :=
  (∀ s t : State, Reachable s → s.refused = false → exec .tsAddrDone s = .next t → t.refused = false) ∧
  ∀ (n : Byte) (c : Count) (s : State),
    (s.ctl.bteEn = true → s.bte.armed = false → s.bpd.pc = .dataW → 1 ≤ n.toNat → c.val = n.toNat →
      exec (.bteArm n) s = .next { s with bte := ⟨true, false, c, 0, s.ts.req.payload⟩ }) ∧
    (s.ctl.bteEn = true → s.bte.armed = false → s.bpd.pc = .dataR → 1 ≤ n.toNat → c.val = n.toNat →
      exec (.bteArm n) s = .next { s with bte := ⟨true, true, c, 0, s.bte.buf⟩ }) ∧
    (s.ctl.bteEn = false ∨ n.toNat = 0 ∨ 16 < n.toNat → IsRefused s (exec (.bteArm n) s)) ∧
    (s.bte.armed = true ∨ (s.bpd.pc ≠ .dataW ∧ s.bpd.pc ≠ .dataR) → IsRefused s (exec (.bteArm n) s)) ∧
    exec .bteDisarm s = .next { s with bte.armed := false }

/-- 41 R153: DP1 sends byte `idx`; ACK counts it, NACK raises AckFailure and does not count it. In DATA_W `addr_acked` is 0. -/
def Obligations.WrittenByte : Prop :=
  (∀ s : State, Reachable s → s.refused = false → s.bpd.pc = .dataW → s.sr.addrAcked = false) ∧
  ∀ (i : Fin 16) (s : State),
    s.bte.armed = true → s.bte.dir = false → s.bpd.pc = .dataW → s.ts.pc = .tsData →
    i.val = s.bte.idx.val → s.bte.idx.val < s.bte.n.val → s.sr.master = true → s.sr.addrAcked = false → NoFault s →
    exec (.dataWbyte .ack) s =
      .next { s with dr := s.bte.buf[i], trace := s.trace ++ [.wr s.bte.buf[i] .ack], bte.idx := i.succ } ∧
    exec (.dataWbyte .nack) s =
      .next { s with dr := s.bte.buf[i], trace := s.trace ++ [.wr s.bte.buf[i] .nack], sr.ackFail := true }

/-- 41 R154: DP2 stores the target's byte at `idx` and answers it; a NACK closes the read. In DATA_R `addr_acked` is 0. R151: the answer
rule, and the answers the block's own values give. -/
def Obligations.ReadByte : Prop :=
  (∀ (ack last : Bool) (i n : Count), readAnswer ack last i n = .ack ↔ (ack = true ∧ ¬(last = true ∧ i.val + 1 = n.val))) ∧
  (∀ i n : Count, i.val < n.val →
    readAnswer (decide (n.val ≠ 1)) true i n = if i.val + 1 = n.val then Answer.nack else Answer.ack) ∧
  (∀ s : State, Reachable s → s.refused = false → s.bpd.pc = .dataR → s.sr.addrAcked = false) ∧
  ∀ (i : Fin 16) (b : Byte) (s : State),
    s.bte.armed = true → s.bte.dir = true → s.bpd.pc = .dataR → s.ts.pc = .tsData →
    i.val = s.bte.idx.val → s.bte.idx.val < s.bte.n.val → s.sr.master = true → s.sr.addrAcked = false → NoFault s →
    s.hid.rxClosed = false →
    (s.ctl.ack = true → ¬(s.ctl.last = true ∧ i.val + 1 = s.bte.n.val) →
      exec (.dataRbyte b) s =
        .next { s with dr := b, bte.buf := s.bte.buf.set i b, bte.idx := i.succ, trace := s.trace ++ [.rd b .ack] }) ∧
    (s.ctl.ack = false ∨ (s.ctl.last = true ∧ i.val + 1 = s.bte.n.val) →
      exec (.dataRbyte b) s =
        .next { s with dr := b, bte.buf := s.bte.buf.set i b, bte.idx := i.succ, trace := s.trace ++ [.rd b .nack],
                       hid.rxClosed := true })

/-! ### The channels (42 section 2) -/

/-- 42 R172: PR1 appends the whole record, whatever stands in it, and the caller is told Accepted. R174: PR3 gives the caller the front of the
response channel. What a caller is told is recorded in `told` (A16). -/
def Obligations.ChannelOperations : Prop :=
  ∀ (k : Nat) (r : TransferRequest) (q : TransferResponse) (rest : List TransferResponse) (s : State), k < s.par.nProducers →
    (s.reqch.length < s.par.reqCap →
      exec (.chEnq k r) s = .next { s with reqch := s.reqch ++ [r], told := s.told ++ [.accepted k r] }) ∧
    (s.rspch = q :: rest →
      exec (.chRecv k) s = .next { s with rspch := rest, told := s.told ++ [.received k q] })

/-- 42 R173, step PR2: on a full channel the caller is told Rejected and nothing else changes. That an attempt resolves at the moment its
move is taken is the model's reading (A27). -/
def Obligations.EnqueueRejected : Prop :=
  ∀ (k : Nat) (r : TransferRequest) (s : State),
    k < s.par.nProducers → s.reqch.length = s.par.reqCap →
    exec (.chEnqReject k r) s = .next { s with told := s.told ++ [.rejected k r] }

/-- The rows REQ.WRITE and REQ.READ: a message that arrives is offered to the channel, accepted while there is room and rejected when it
is full (30 R106 "try to enqueue"; that one move takes PR1 or PR2 is the model's choice, A10). -/
def Obligations.RequestMessagesOffered : Prop :=
  ∀ (k : Nat) (a n : Byte) (p : Buf) (s : State), k < s.par.nProducers →
    (s.reqch.length < s.par.reqCap →
      exec (.reqWrite k a n p) s =
        .next { s with reqch := s.reqch ++ [⟨0x00#8, a, n, p⟩], told := s.told ++ [.accepted k ⟨0x00#8, a, n, p⟩] } ∧
      exec (.reqRead k a n p) s =
        .next { s with reqch := s.reqch ++ [⟨0x01#8, a, n, p⟩], told := s.told ++ [.accepted k ⟨0x01#8, a, n, p⟩] }) ∧
    (s.reqch.length = s.par.reqCap →
      exec (.reqWrite k a n p) s = .next { s with told := s.told ++ [.rejected k ⟨0x00#8, a, n, p⟩] } ∧
      exec (.reqRead k a n p) s = .next { s with told := s.told ++ [.rejected k ⟨0x01#8, a, n, p⟩] })

/-- The rows RSP.SUCCESS and RSP.ERROR: the message at the front of the response channel is taken by the producer; a message that is not
the front is not taken (the model's reading, A11; taking is 42 R174). -/
def Obligations.ResponseMessagesTaken : Prop :=
  ∀ (k : Nat) (n : Count) (b : Buf) (rest : List TransferResponse) (s : State),
    (k < s.par.nProducers → s.rspch = ⟨.success, n, b⟩ :: rest →
      exec (.rspSuccess k n b) s = .next { s with rspch := rest, told := s.told ++ [.received k ⟨.success, n, b⟩] }) ∧
    (k < s.par.nProducers → s.rspch = ⟨.error, n, b⟩ :: rest →
      exec (.rspError k n b) s = .next { s with rspch := rest, told := s.told ++ [.received k ⟨.error, n, b⟩] }) ∧
    (s.rspch.head? ≠ some ⟨.success, n, b⟩ → exec (.rspSuccess k n b) s = .next s) ∧
    (s.rspch.head? ≠ some ⟨.error, n, b⟩ → exec (.rspError k n b) s = .next s)

/-! ### The scheduler (42 section 3) -/

/-- 42 R177: TS1 takes the front request, opens BEGINWRITE or BEGINREAD by its kind, and refuses a request that is not admitted. In
TS_WAIT the driver is READY, so the `pre` of BW1 and BR1 is met. -/
def Obligations.RequestDequeued : Prop :=
  (∀ s : State, Reachable s → s.refused = false → s.ts.pc = .tsWait → s.bpd.pc = .ready) ∧
  ∀ (r : TransferRequest) (rest : List TransferRequest) (size : Count) (s : State),
    s.ts.pc = .tsWait → s.reqch = r :: rest → s.bpd.inited = true →
    (r.kind = 0x00#8 → 1 ≤ r.length.toNat → r.length.toNat ≤ 16 → s.bpd.pc = .ready →
      exec .tsDequeue s =
        .next { s with ts.req := r, ts.pc := .tsAddr, reqch := rest, bte.n := 0, bte.idx := 0,
                       bpd.rw := false, bpd.a := r.deviceAddress, bpd.pc := .wSb, ctl.start := true }) ∧
    (r.kind = 0x01#8 → 1 ≤ r.length.toNat → size.val = r.length.toNat → s.bpd.pc = .ready →
      exec .tsDequeue s =
        .next { s with ts.req := r, ts.pc := .tsAddr, reqch := rest, bte.n := 0, bte.idx := 0,
                       bpd.rw := true, bpd.a := r.deviceAddress, bpd.size := size, bpd.pc := .wSb, ctl.start := true,
                       hid.rxClosed := false }) ∧
    (2 ≤ r.kind.toNat ∨ r.length.toNat = 0 ∨ 16 < r.length.toNat → IsRefused s (exec .tsDequeue s))

/-- 42 R178: TS2 arms the engine with the request's length. The `pre` of BA1 is a premise here. -/
def Obligations.AddressPhaseDone : Prop :=
  ∀ (c : Count) (s : State),
    s.ts.pc = .tsAddr → NoFault s → s.ctl.bteEn = true → s.bte.armed = false →
    1 ≤ s.ts.req.length.toNat → c.val = s.ts.req.length.toNat →
    (s.bpd.pc = .dataW →
      exec .tsAddrDone s = .next { s with bte := ⟨true, false, c, 0, s.ts.req.payload⟩, ts.pc := .tsData }) ∧
    (s.bpd.pc = .dataR →
      exec .tsAddrDone s = .next { s with bte := ⟨true, true, c, 0, s.bte.buf⟩, ts.pc := .tsData })

/-- 42 R179, R180, R181: TS3, TS4 and TS5 latch the outcome. -/
def Obligations.OutcomeLatched : Prop :=
  ∀ s : State,
    (s.ts.pc = .tsAddr → ¬NoFault s → s.par.faultExit = true ∨ s.bpd.pc = .dataW ∨ s.bpd.pc = .dataR →
      exec .tsAddrFault s = .next { s with ts.status := .error, ts.pc := .tsFinish }) ∧
    (s.ts.pc = .tsData → s.bte.idx = s.bte.n → NoFault s →
      exec .tsDataDone s = .next { s with ts.status := .success, ts.pc := .tsFinish }) ∧
    (s.ts.pc = .tsData → ¬NoFault s →
      exec .tsDataFault s = .next { s with ts.status := .error, ts.pc := .tsFinish })

/-- 42 R182: TS6 disarms, requests the stop, clears the flags (`master` stays) and composes the response; for a Read its buffer holds the
bytes received (R183). The counter of free bytes is the model's own. -/
def Obligations.TransactionFinished : Prop :=
  ∀ s : State, s.ts.pc = .tsFinish → s.bpd.inited = true → s.bpd.pc ≠ .ready →
    ∃ (b : Buf) (d : Nat),
      exec .tsFinish s =
        .next { s with bte.armed := false, ctl.stop := true, ctl.start := false, bpd.pc := .ready,
                       sr := ⟨false, false, s.sr.master, false, false, false⟩, hid.addrPending := false,
                       ts.rsp := ⟨s.ts.status, s.bte.idx, b⟩, ts.pc := .tsResp, draws := d } ∧
      (s.ts.req.kind = 0x01#8 → ∀ i : Fin 16, i.val < s.bte.idx.val → b[i] = s.bte.buf[i])

/-- 42 R183: every byte of the response's buffer that is not a received byte is a free byte, and no free byte is drawn for two responses
(how free bytes are numbered is the model's choice, A7). -/
def Obligations.UnusedBufferBytesFree : Prop :=
  ∀ s t : State, s.ts.pc = .tsFinish → s.bpd.inited = true → s.bpd.pc ≠ .ready → exec .tsFinish s = .next t →
    ∀ i : Fin 16, s.ts.req.kind ≠ 0x01#8 ∨ s.bte.idx.val ≤ i.val →
      t.ts.rsp.buffer[i] = Config.freeByte (s.draws + i.val) ∧ s.draws + i.val < t.draws

/-- 42 R184: TS7 puts the response on the channel and returns to TS_WAIT. -/
def Obligations.ResponsePut : Prop :=
  ∀ s : State, s.ts.pc = .tsResp → s.rspch.length < s.par.rspCap →
    exec .tsPut s = .next { s with rspch := s.rspch ++ [s.ts.rsp], ts.pc := .tsWait }

/-! ### The bus environment (43) -/

/-- 43 R211: EV1 sends the start; it is never a repeated start, for in a reachable state where EV1 is enabled the block is not master. -/
def Obligations.StartSent : Prop :=
  (∀ s : State, s.ctl.start = true → s.ctl.stop = false → NoFault s →
    exec .envStart s =
      .next { s with trace := s.trace ++ [.start], ctl.start := false, sr.startSent := true, sr.master := true }) ∧
  (∀ s : State, Reachable s → s.refused = false → s.ctl.start = true → s.ctl.stop = false → NoFault s → s.sr.master = false)

/-- 43 R212, R214: EV2 and EV3 are enabled alike and either may come (R213); where an address byte is pending, `addr_acked` is 0, so EV3
leaves it 0. -/
def Obligations.AddressAnswered : Prop :=
  (∀ s : State, s.hid.addrPending = true → s.sr.master = true → s.ctl.stop = false → NoFault s →
    exec .envAddrAck s =
      .next { s with trace := s.trace ++ [.addr s.dr .ack], sr.addrAcked := true, hid.addrPending := false } ∧
    exec .envAddrNack s =
      .next { s with trace := s.trace ++ [.addr s.dr .nack], sr.ackFail := true, hid.addrPending := false }) ∧
  (∀ s : State, Reachable s → s.refused = false → s.hid.addrPending = true → s.sr.addrAcked = false)

/-- 43 R215: EV4 completes the stop whatever the fault flags say, with `P` on the wire only if the block is still master. -/
def Obligations.StopCompleted : Prop :=
  ∀ s : State, s.ctl.stop = true →
    (s.sr.master = true →
      exec .envStop s =
        .next { s with trace := s.trace ++ [.stop], sr.master := false, ctl.stop := false, hid.addrPending := false }) ∧
    (s.sr.master = false → exec .envStop s = .next { s with ctl.stop := false, hid.addrPending := false })

/-- 43 R216, R217: EV5 and EV6 raise their flags; a lost arbitration also ends master mode and drops a pending address byte. -/
def Obligations.BusFaultsRaised : Prop :=
  ∀ s : State, s.ctl.start = true ∨ s.sr.master = true → s.ctl.stop = false →
    exec .envBusError s = .next { s with sr.busErr := true } ∧
    exec .envArbLost s = .next { s with sr.arbLost := true, sr.master := false, hid.addrPending := false }

/-- A step of TS, of ENV or of the BTE, or a channel operation, whose `pre` is false does not happen: the model's step leaves the state as it
is (00 R13; the model's reading, A2; for a producer that does not exist, A25). -/
def Obligations.OtherAgentsWait : Prop :=
  ∀ (k : Nat) (r : TransferRequest) (answer : Answer) (b : Byte) (s : State),
    (¬(s.ts.pc = .tsWait ∧ s.reqch ≠ [] ∧ s.bpd.inited = true) → exec .tsDequeue s = .next s) ∧
    (¬(s.ts.pc = .tsAddr ∧ (s.bpd.pc = .dataW ∨ s.bpd.pc = .dataR) ∧ NoFault s) → exec .tsAddrDone s = .next s) ∧
    (¬(s.ts.pc = .tsAddr ∧ ¬NoFault s ∧ (s.par.faultExit = true ∨ s.bpd.pc = .dataW ∨ s.bpd.pc = .dataR)) →
      exec .tsAddrFault s = .next s) ∧
    (¬(s.ts.pc = .tsData ∧ s.bte.idx = s.bte.n ∧ NoFault s) → exec .tsDataDone s = .next s) ∧
    (¬(s.ts.pc = .tsData ∧ ¬NoFault s) → exec .tsDataFault s = .next s) ∧
    (s.ts.pc ≠ .tsFinish → exec .tsFinish s = .next s) ∧
    (¬(s.ts.pc = .tsResp ∧ s.rspch.length < s.par.rspCap) → exec .tsPut s = .next s) ∧
    (¬(s.bte.armed = true ∧ s.bte.dir = false ∧ s.bpd.pc = .dataW ∧ s.ts.pc = .tsData ∧ s.bte.idx.val < s.bte.n.val ∧
        s.sr.master = true ∧ s.sr.addrAcked = false ∧ NoFault s) → exec (.dataWbyte answer) s = .next s) ∧
    (¬(s.bte.armed = true ∧ s.bte.dir = true ∧ s.bpd.pc = .dataR ∧ s.ts.pc = .tsData ∧ s.bte.idx.val < s.bte.n.val ∧
        s.sr.master = true ∧ s.sr.addrAcked = false ∧ NoFault s ∧ s.hid.rxClosed = false) → exec (.dataRbyte b) s = .next s) ∧
    (¬(s.ctl.start = true ∧ s.ctl.stop = false ∧ NoFault s) → exec .envStart s = .next s) ∧
    (¬(s.hid.addrPending = true ∧ s.sr.master = true ∧ s.ctl.stop = false ∧ NoFault s) →
      exec .envAddrAck s = .next s ∧ exec .envAddrNack s = .next s) ∧
    (s.ctl.stop = false → exec .envStop s = .next s) ∧
    (¬((s.ctl.start = true ∨ s.sr.master = true) ∧ s.ctl.stop = false) →
      exec .envBusError s = .next s ∧ exec .envArbLost s = .next s) ∧
    (¬(k < s.par.nProducers ∧ s.reqch.length < s.par.reqCap) → exec (.chEnq k r) s = .next s) ∧
    (¬(k < s.par.nProducers ∧ s.reqch.length = s.par.reqCap) → exec (.chEnqReject k r) s = .next s) ∧
    (¬(k < s.par.nProducers ∧ s.rspch ≠ []) → exec (.chRecv k) s = .next s)

/-! ### Reset, decoding and the step -/

/-- 70 R280: the items whose reset value the spec gives. -/
def Obligations.ResetValues : Prop :=
  State.reset.ts.pc = .tsWait ∧ State.reset.bpd.pc = .ready ∧ State.reset.bpd.inited = false ∧
  State.reset.ctl = ⟨false, false, false, false, false⟩ ∧
  State.reset.sr = ⟨false, false, false, false, false, false⟩ ∧ State.reset.hid = ⟨false, false⟩ ∧
  State.reset.bte.armed = false ∧ State.reset.bte.n = 0 ∧ State.reset.bte.idx = 0 ∧
  State.reset.reqch = [] ∧ State.reset.rspch = [] ∧ State.reset.trace = [] ∧ State.reset.refused = false

/-- The step: the next move leaves the agenda, is decoded and run (the model's choice, A1); with no move the block rests. Bytes that are no
instruction are refused (30 R101 to R105), but for a REQ message: the channel does not look into it (30 R101, 42 R172), so all 19-byte messages,
those with a reserved kind or length among them, are offered to the channel (A15; accepted while there is room, rejected when it is full, A10;
from an index that is no producer nothing happens, A25), and a REQ message of another length is refused. -/
def Obligations.StepRunsDecodedMove : Prop :=
  ∀ (e : Stimulus) (rest : List Stimulus) (s : State), s.refused = false →
    (s.agenda = e :: rest → ∀ i, decode e = .ok i → step s = exec i { s with agenda := rest }) ∧
    (s.agenda = e :: rest → (∀ i, decode e ≠ .ok i) → (∀ k bytes, e ≠ .message (.request k) bytes) →
      step s = .next { s with agenda := rest, refused := true }) ∧
    (∀ k kind a n (p : Buf), s.agenda = .message (.request k) (kind :: a :: n :: p.toList) :: rest →
      (k < s.par.nProducers → s.reqch.length < s.par.reqCap →
        step s = .next { s with agenda := rest, reqch := s.reqch ++ [⟨kind, a, n, p⟩],
                                told := s.told ++ [.accepted k ⟨kind, a, n, p⟩] }) ∧
      (k < s.par.nProducers → s.reqch.length = s.par.reqCap →
        step s = .next { s with agenda := rest, told := s.told ++ [.rejected k ⟨kind, a, n, p⟩] }) ∧
      (s.par.nProducers ≤ k ∨ s.par.reqCap < s.reqch.length → step s = .next { s with agenda := rest })) ∧
    (∀ k bytes, s.agenda = .message (.request k) bytes :: rest → bytes.length ≠ 19 →
      step s = .next { s with agenda := rest, refused := true }) ∧
    (s.agenda = [] → step s = .next s)

/-- Words written out from 30 Tables 30-1 to 30-4 (95 V-MSG, V-WA) decode to what they stand for. -/
def Obligations.SampleWordsDecode : Prop :=
  decode (.message (.request 0) ([0x01#8, 0x50#8, 0x02#8] ++ List.replicate 16 0x00#8)) = .ok (.reqRead 0 0x50#8 2#8 .zero) ∧
  decode (.message (.response 0) ([0x01#8, 0x00#8] ++ List.replicate 16 0x00#8)) = .ok (.rspError 0 0 .zero) ∧
  decode (.command [0x02#8, 0x50#8, 0x04#8] .sample) = .ok (.cmdBeginRead (.br1 0x50#8 4#8)) ∧
  decode (.command [0x03#8, 0x00#8, 0x00#8] .sample) = .ok .cmdEnd ∧
  decode (.message .wire [0xA0#8]) = .ok (.waWrite 0x50#7) ∧ decode (.message .wire [0xA3#8]) = .ok (.waRead 0x51#7)

/-- Decoding what an instruction encodes to gives it back, for every well-formed instruction and every operand. -/
def Obligations.DecodeEncode : Prop :=
  ∀ i : Instr, i.wellFormed = true → decode (encode i) = .ok i

/-- Bytes have one meaning: a REQ, an RSP or a WA message that decodes is the encoding of what it decodes to; of a CMD word this holds of
the bytes its operation reads. -/
def Obligations.EncodeDecode : Prop :=
  (∀ (k : Nat) (bytes : List Byte) (i : Instr), decode (.message (.request k) bytes) = .ok i → encodeBytes i = bytes) ∧
  (∀ (k : Nat) (bytes : List Byte) (i : Instr), decode (.message (.response k) bytes) = .ok i → encodeBytes i = bytes) ∧
  (∀ (bytes : List Byte) (i : Instr), decode (.message .wire bytes) = .ok i → encodeBytes i = bytes) ∧
  (∀ (bytes : List Byte) (c : CfgRecord) (i : Instr), decode (.command bytes c) = .ok i →
    bytes.length = 3 ∧ (encodeBytes i).head? = bytes.head? ∧
    ((∃ a, i = .cmdBeginWrite (.bw1 a)) → (encodeBytes i).take 2 = bytes.take 2) ∧
    ((∃ a n, i = .cmdBeginRead (.br1 a n)) → encodeBytes i = bytes) ∧ (∀ d, i = .cmdInit d → d = c))

/-- A message of the right length is an instruction exactly when its values are not reserved (30 Tables 30-1 to 30-4, R101 to R103); a CMD
word with any CFG record beside it, which INIT alone reads. -/
def Obligations.ReservedValuesRejected : Prop :=
  (∀ (k : Nat) (kind a n : Byte) (p : Buf),
    (∃ i, decode (.message (.request k) (kind :: a :: n :: p.toList)) = .ok i) ↔
      (kind.toNat ≤ 1 ∧ 1 ≤ n.toNat ∧ n.toNat ≤ 16)) ∧
  (∀ (k : Nat) (status n : Byte) (b : Buf),
    (∃ i, decode (.message (.response k) (status :: n :: b.toList)) = .ok i) ↔ (status.toNat ≤ 1 ∧ n.toNat ≤ 16)) ∧
  (∀ (op a n : Byte) (c : CfgRecord), (∃ i, decode (.command [op, a, n] c) = .ok i) ↔
    (op.toNat ≤ 3 ∧ (op.toNat = 2 → 1 ≤ n.toNat ∧ n.toNat ≤ 16) ∧
      (op.toNat = 0 → c.busSpeed = .fastMode400kHz ∧ c.analogFilter = true ∧ c.digitalFilter = false))) ∧
  (∀ b : Byte, ∃ i, decode (.message .wire [b]) = .ok i)

/-- 30 R104, 10 R49: the mark `refused` is never cleared, and once it is set the block is given no steps (the answer of the step is the
model's, A3). -/
def Obligations.RefusedSticks : Prop :=
  (∀ (i : Instr) (s t : State), exec i s = .next t → s.refused = true → t.refused = true) ∧
  (∀ s : State, s.refused = true → step s = .refused .refusedMarkSet)

/-! ### Who writes what (10 Table 10-1) -/

/-- 10 R27, R28: the edges of `bpd.pc` and of `ts.pc`, over every instruction. The rows WA take the edges of BW3 and BR3 (A12). -/
def Obligations.SequencerEdges : Prop :=
  ∀ (i : Instr) (s t : State), exec i s = .next t →
   (t.bpd.pc ≠ s.bpd.pc →
    (s.bpd.pc = .ready ∧ t.bpd.pc = .wSb ∧
      (i = .tsDequeue ∨ (∃ a, i = .cmdBeginWrite (.bw1 a)) ∨ ∃ a n, i = .cmdBeginRead (.br1 a n))) ∨
    (s.bpd.pc = .wSb ∧ t.bpd.pc = .sendAddr ∧ (i = .cmdBeginWrite .bw2 ∨ i = .cmdBeginRead .br2)) ∨
    (s.bpd.pc = .sendAddr ∧ t.bpd.pc = .wAmW ∧ (i = .cmdBeginWrite .bw3 ∨ ∃ a, i = .waWrite a)) ∨
    (s.bpd.pc = .sendAddr ∧ t.bpd.pc = .wAddrR ∧ (i = .cmdBeginRead .br3 ∨ ∃ a, i = .waRead a)) ∨
    (s.bpd.pc = .wAmW ∧ t.bpd.pc = .dataW ∧ i = .cmdBeginWrite .bw4) ∨
    (s.bpd.pc = .wAddrR ∧ t.bpd.pc = .cfgAck ∧ i = .cmdBeginRead .br4) ∨
    (s.bpd.pc = .cfgAck ∧ t.bpd.pc = .wMslR ∧ i = .cmdBeginRead .br5) ∨
    (s.bpd.pc = .wMslR ∧ t.bpd.pc = .dataR ∧ i = .cmdBeginRead .br6) ∨
    (t.bpd.pc = .ready ∧ (i = .tsFinish ∨ i = .cmdEnd))) ∧
   (t.ts.pc ≠ s.ts.pc →
    (s.ts.pc = .tsWait ∧ t.ts.pc = .tsAddr ∧ i = .tsDequeue) ∨ (s.ts.pc = .tsAddr ∧ t.ts.pc = .tsData ∧ i = .tsAddrDone) ∨
    (s.ts.pc = .tsAddr ∧ t.ts.pc = .tsFinish ∧ i = .tsAddrFault) ∨
    (s.ts.pc = .tsData ∧ t.ts.pc = .tsFinish ∧ (i = .tsDataDone ∨ i = .tsDataFault)) ∨
    (s.ts.pc = .tsFinish ∧ t.ts.pc = .tsResp ∧ i = .tsFinish) ∨ (s.ts.pc = .tsResp ∧ t.ts.pc = .tsWait ∧ i = .tsPut))

/-- 10 R37 to R41, Table 10-1: who sets and who clears each control bit. TS1 contains BW1 and BR1, TS6 contains ET1. -/
def Obligations.ControlBitWriters : Prop :=
  ∀ (i : Instr) (s t : State), exec i s = .next t →
    (s.ctl.start = false → t.ctl.start = true →
      i = .tsDequeue ∨ (∃ a, i = .cmdBeginWrite (.bw1 a)) ∨ ∃ a n, i = .cmdBeginRead (.br1 a n)) ∧
    (s.ctl.start = true → t.ctl.start = false → i = .envStart ∨ i = .tsFinish ∨ i = .cmdEnd) ∧
    (s.ctl.stop = false → t.ctl.stop = true → i = .tsFinish ∨ i = .cmdEnd) ∧
    (s.ctl.stop = true → t.ctl.stop = false → i = .envStop) ∧
    (t.ctl.ack ≠ s.ctl.ack → i = .cmdBeginRead .br5) ∧
    (t.ctl.bteEn ≠ s.ctl.bteEn ∨ t.ctl.last ≠ s.ctl.last ∨ t.cfg ≠ s.cfg ∨ t.bpd.inited ≠ s.bpd.inited →
      (∃ c, i = .cmdInit c) ∧ t.ctl.bteEn = true ∧ t.ctl.last = true ∧ t.bpd.inited = true)

/-- 10 R29 to R34, R46, R47, Table 10-1: who sets and who clears each flag and each hidden bit. The WA rows stand for BW3 and BR3 (the
model's reading, A12). -/
def Obligations.FlagWriters : Prop :=
  ∀ (i : Instr) (s t : State), exec i s = .next t →
    (s.sr.startSent = false → t.sr.startSent = true → i = .envStart) ∧
    (s.sr.startSent = true → t.sr.startSent = false →
      i = .cmdBeginWrite .bw3 ∨ i = .cmdBeginRead .br3 ∨ (∃ a, i = .waWrite a) ∨ (∃ a, i = .waRead a) ∨ i = .tsFinish) ∧
    (s.sr.addrAcked = false → t.sr.addrAcked = true → i = .envAddrAck) ∧
    (s.sr.addrAcked = true → t.sr.addrAcked = false → i = .cmdBeginWrite .bw4 ∨ i = .cmdBeginRead .br6 ∨ i = .tsFinish) ∧
    (s.sr.master = false → t.sr.master = true → i = .envStart) ∧
    (s.sr.master = true → t.sr.master = false → i = .envStop ∨ i = .envArbLost) ∧
    (s.sr.ackFail = false → t.sr.ackFail = true → i = .envAddrNack ∨ i = .dataWbyte .nack) ∧
    (s.sr.busErr = false → t.sr.busErr = true → i = .envBusError) ∧
    (s.sr.arbLost = false → t.sr.arbLost = true → i = .envArbLost) ∧
    (s.sr.ackFail = true → t.sr.ackFail = false → i = .tsFinish) ∧
    (s.sr.busErr = true → t.sr.busErr = false → i = .tsFinish) ∧
    (s.sr.arbLost = true → t.sr.arbLost = false → i = .tsFinish) ∧
    (s.hid.addrPending = false → t.hid.addrPending = true →
      i = .cmdBeginWrite .bw3 ∨ i = .cmdBeginRead .br3 ∨ (∃ a, i = .waWrite a) ∨ ∃ a, i = .waRead a) ∧
    (s.hid.addrPending = true → t.hid.addrPending = false →
      i = .envAddrAck ∨ i = .envAddrNack ∨ i = .envStop ∨ i = .envArbLost ∨ i = .tsFinish) ∧
    (s.hid.rxClosed = false → t.hid.rxClosed = true → ∃ b, i = .dataRbyte b) ∧
    (s.hid.rxClosed = true → t.hid.rxClosed = false → i = .tsDequeue ∨ ∃ a n, i = .cmdBeginRead (.br1 a n))

/-- 10 Table 10-1: who writes the data-holding items, the channels and the trace. The model's own, not the table's: the REQ rows append to the
request channel (A10), the RSP rows take from the response channel (A11), the WA rows write `DR` (A12), and of the model's own fields no
instruction writes the agenda (A1) or the parameters (A9) and TS6 alone writes `draws` (A7). -/
def Obligations.DataItemWriters : Prop :=
  ∀ (i : Instr) (s t : State), exec i s = .next t →
    t.par = s.par ∧ t.agenda = s.agenda ∧
    (t.dr ≠ s.dr → i = .cmdBeginWrite .bw3 ∨ i = .cmdBeginRead .br3 ∨ (∃ a, i = .waWrite a) ∨ (∃ a, i = .waRead a) ∨
      (∃ k, i = .dataWbyte k) ∨ ∃ b, i = .dataRbyte b) ∧
    (t.bpd.rw ≠ s.bpd.rw ∨ t.bpd.a ≠ s.bpd.a →
      i = .tsDequeue ∨ (∃ a, i = .cmdBeginWrite (.bw1 a)) ∨ ∃ a n, i = .cmdBeginRead (.br1 a n)) ∧
    (t.bpd.size ≠ s.bpd.size → i = .tsDequeue ∨ ∃ a n, i = .cmdBeginRead (.br1 a n)) ∧
    (t.bte.armed ≠ s.bte.armed → i = .tsAddrDone ∨ (∃ n, i = .bteArm n) ∨ i = .tsFinish ∨ i = .bteDisarm) ∧
    (t.bte.dir ≠ s.bte.dir → i = .tsAddrDone ∨ ∃ n, i = .bteArm n) ∧
    (t.bte.n ≠ s.bte.n → i = .tsDequeue ∨ i = .tsAddrDone ∨ ∃ n, i = .bteArm n) ∧
    (t.bte.idx ≠ s.bte.idx →
      i = .tsDequeue ∨ i = .tsAddrDone ∨ (∃ n, i = .bteArm n) ∨ (∃ k, i = .dataWbyte k) ∨ ∃ b, i = .dataRbyte b) ∧
    (t.bte.buf ≠ s.bte.buf → i = .tsAddrDone ∨ (∃ n, i = .bteArm n) ∨ ∃ b, i = .dataRbyte b) ∧
    (t.ts.req ≠ s.ts.req → i = .tsDequeue) ∧
    (t.ts.status ≠ s.ts.status → i = .tsAddrFault ∨ i = .tsDataDone ∨ i = .tsDataFault) ∧
    (t.ts.rsp ≠ s.ts.rsp ∨ t.draws ≠ s.draws → i = .tsFinish) ∧
    (t.reqch ≠ s.reqch → (∃ k r, i = .chEnq k r ∧ t.reqch = s.reqch ++ [r]) ∨
      (∃ k a n p, i = .reqWrite k a n p ∧ t.reqch = s.reqch ++ [⟨0x00#8, a, n, p⟩]) ∨
      (∃ k a n p, i = .reqRead k a n p ∧ t.reqch = s.reqch ++ [⟨0x01#8, a, n, p⟩]) ∨ (i = .tsDequeue ∧ t.reqch = s.reqch.tail)) ∧
    (t.rspch ≠ s.rspch → (i = .tsPut ∧ t.rspch = s.rspch ++ [s.ts.rsp]) ∨
      (((∃ k, i = .chRecv k) ∨ (∃ k n b, i = .rspSuccess k n b) ∨ ∃ k n b, i = .rspError k n b) ∧ t.rspch = s.rspch.tail)) ∧
    (t.trace ≠ s.trace → ((i = .envStart ∨ i = .envAddrAck ∨ i = .envAddrNack ∨ i = .envStop ∨
      (∃ k, i = .dataWbyte k) ∨ ∃ b, i = .dataRbyte b) ∧ ∃ e, t.trace = s.trace ++ [e]))

/-! ### Invariants -/

/-- At every launch (70 R283: any parameters, any moves that respect ownership) the invariant holds; the agenda is the model's (A1). -/
def Obligations.LaunchMeetsInvariant : Prop :=
  ∀ (p : Params) (agenda : List Stimulus), (∀ e ∈ agenda, Owned e = true) →
    Inv { State.reset with par := p, agenda := agenda }

/-- Every step keeps the invariant (10 R52 and what makes it inductive; Machine.CoreInv). -/
def Obligations.StepKeepsInvariant : Prop :=
  ∀ s t : State, Inv s → step s = .next t → Inv t

/-- 10 R52, (a) to (i), over the reachable states of the model. For (i) the requests between TS1 and TS7 are counted: those accepted that
neither wait in the request channel nor have a response, given or waiting; a TS that waits has none. What was accepted and given is read from
the model's record `told` (A16). -/
def Obligations.ReachableInvariants : Prop :=
  ∀ s : State, Reachable s → s.refused = false →
    (s.bpd.pc ≠ .ready → s.ts.pc = .tsAddr ∨ s.ts.pc = .tsData ∨ s.ts.pc = .tsFinish) ∧
    (s.bte.armed = true → s.ts.pc = .tsData ∨ s.ts.pc = .tsFinish) ∧
    (s.bte.idx.val ≤ s.bte.n.val ∧ s.bte.n.val ≤ 16) ∧
    (s.reqch.length ≤ s.par.reqCap ∧ s.rspch.length ≤ s.par.rspCap) ∧
    (s.ctl.start = true → s.bpd.pc = .wSb) ∧
    (s.sr.startSent = true → s.bpd.pc = .wSb ∨ s.bpd.pc = .sendAddr ∨ s.ts.pc = .tsFinish) ∧
    (s.hid.addrPending = true → s.bpd.pc = .wAmW ∨ s.bpd.pc = .wAddrR ∨ s.ts.pc = .tsFinish) ∧
    (s.ts.pc = .tsResp ∨ s.ts.pc = .tsWait → NoFault s) ∧
    (∃ served underway, acceptedRequests s.told = served ++ underway ++ s.reqch ∧
      List.Forall₂ Answers served (receivedResponses s.told ++ s.rspch) ∧
      underway.length ≤ 1 ∧ (underway = [] ↔ s.ts.pc = .tsWait) ∧ ∀ r ∈ underway, r = s.ts.req)

/-- 42 R185, 20 R71, R72: exactly one response per accepted request, in the order of acceptance, and none for a rejected one, in every
reachable state. -/
def Obligations.ResponsesPairInOrder : Prop :=
  ∀ s : State, Reachable s → s.refused = false → PairedInOrder s

/-- 42 R186: the response never counts more than the request, a Success counts all of it, and an Error of the address phase counts 0. -/
def Obligations.LengthLaws : Prop :=
  (∀ s : State, Reachable s → s.refused = false → s.ts.pc = .tsResp →
    s.ts.rsp.length.val ≤ s.ts.req.length.toNat ∧
    (s.ts.rsp.status = .success → s.ts.rsp.length.val = s.ts.req.length.toNat)) ∧
  (∀ s t u : State, Reachable s → s.refused = false → s.ts.pc = .tsAddr → exec .tsAddrFault s = .next t → t.ts.pc = .tsFinish →
    exec .tsFinish t = .next u → u.ts.rsp.status = .error ∧ u.ts.rsp.length = 0)

/-- 40 R128: whenever the data phase of a read is open, the acknowledge bit is clear exactly for a size of 1. -/
def Obligations.AcknowledgeBitBeforeData : Prop :=
  ∀ s : State, Reachable s → s.refused = false → s.bpd.pc = .dataR → (s.ctl.ack = false ↔ s.bpd.size.val = 1)

/-- 43 R220: the trace of every reachable state is framed, an event of a frame never standing outside its place. -/
def Obligations.TraceFramed : Prop :=
  ∀ s : State, Reachable s → s.refused = false → (frameAfter s.trace).isSome = true

/-- 41 R157, 40 R132: while a data phase without a fault is open, the wire shows this request's start, its address byte acknowledged, and
then exactly the `idx` bytes counted so far, in order. -/
def Obligations.CountingLaw : Prop :=
  ∀ s : State, Reachable s → s.refused = false → s.ts.pc = .tsData → NoFault s →
    ∃ before, s.trace =
      before ++ [.start, .addr (wireByte s.ts.req.deviceAddress (decide (s.ts.req.kind = 0x01#8))) .ack] ++ dataEvents s

/-! ### Faults (60) -/

/-- 43 R218: after a fault no start, address answer or data byte moves, while the stop and further faults may. -/
def Obligations.SilenceAfterFault : Prop :=
  ∀ s : State, ¬NoFault s →
    exec .envStart s = .next s ∧ exec .envAddrAck s = .next s ∧ exec .envAddrNack s = .next s ∧
    (∀ k, exec (.dataWbyte k) s = .next s) ∧ (∀ b, exec (.dataRbyte b) s = .next s) ∧
    (s.ctl.stop = true → ∃ t, exec .envStop s = .next t ∧ t.ctl.stop = false) ∧
    ((s.ctl.start = true ∨ s.sr.master = true) ∧ s.ctl.stop = false →
      ∃ t u, exec .envBusError s = .next t ∧ t.sr.busErr = true ∧ exec .envArbLost s = .next u ∧ u.sr.arbLost = true)

/-- 60 R251, 43 R218: from a fault to the response the count stays what it was: no step of a reachable state with a fault flag set changes
`bte.idx`, no step but TS6 clears the flag, and TS6 reports the count. -/
def Obligations.ErrorCountExact : Prop :=
  ∀ (i : Instr) (s t : State), Reachable s → s.refused = false → ¬NoFault s → innerStep i = false → exec i s = .next t →
    t.bte.idx = s.bte.idx ∧ (i ≠ .tsFinish → ¬NoFault t) ∧
    (i = .tsFinish → t.ts.pc = .tsResp → t.ts.rsp.length = s.bte.idx)

/-- 60 R250: a fault seen before TS4 beats completion, one raised after TS4 is cleared unreported by TS6, and with FAULT_EXIT no BPD step
and no data step runs while a fault flag is set. -/
def Obligations.FaultBeatsCompletion : Prop :=
  ∀ s : State, ¬NoFault s →
    exec .tsAddrDone s = .next s ∧ exec .tsDataDone s = .next s ∧
    (s.ts.pc = .tsData → exec .tsDataFault s = .next { s with ts.status := .error, ts.pc := .tsFinish }) ∧
    (s.ts.pc = .tsAddr → s.par.faultExit = true ∨ s.bpd.pc = .dataW ∨ s.bpd.pc = .dataR →
      exec .tsAddrFault s = .next { s with ts.status := .error, ts.pc := .tsFinish }) ∧
    (s.ts.pc = .tsFinish → s.bpd.inited = true → s.bpd.pc ≠ .ready →
      ∃ t, exec .tsFinish s = .next t ∧ t.ts.rsp.status = s.ts.status ∧ t.ts.rsp.length = s.bte.idx ∧ NoFault t) ∧
    (s.par.faultExit = true → ∀ st st', st.isFirst = false → st'.isFirst = false →
      exec (.cmdBeginWrite st) s = .next s ∧ exec (.cmdBeginRead st') s = .next s) ∧
    (∀ k b, exec (.dataWbyte k) s = .next s ∧ exec (.dataRbyte b) s = .next s)

/-- 60 R246, R247: the abort sequence as a run of four steps (observe, clean up, report, release), and the state after it. -/
def Obligations.AbortSequence : Prop :=
  ∀ (observe : Instr) (rest : List Stimulus) (s : State),
    s.refused = false → ¬NoFault s → s.bpd.inited = true → s.bpd.pc ≠ .ready → s.rspch.length < s.par.rspCap →
    (s.ts.pc = .tsAddr ∧ observe = .tsAddrFault ∧ (s.par.faultExit = true ∨ s.bpd.pc = .dataW ∨ s.bpd.pc = .dataR)) ∨
      (s.ts.pc = .tsData ∧ observe = .tsDataFault) →
    s.agenda = [move observe, move .tsFinish, move .tsPut, move .envStop] ++ rest →
    ∃ t b, Sys2Proof.core.run 4 s = .next t ∧ t.agenda = rest ∧ t.refused = false ∧
      t.ts.pc = .tsWait ∧ t.bpd = { s.bpd with pc := .ready } ∧ t.bte = { s.bte with armed := false } ∧
      t.sr = ⟨false, false, false, false, false, false⟩ ∧ t.ctl = { s.ctl with start := false, stop := false } ∧
      t.hid = { s.hid with addrPending := false } ∧ t.dr = s.dr ∧ t.ts.req = s.ts.req ∧ t.ts.status = .error ∧
      t.ts.rsp = ⟨.error, s.bte.idx, b⟩ ∧ t.rspch = s.rspch ++ [⟨.error, s.bte.idx, b⟩] ∧ t.reqch = s.reqch ∧ t.cfg = s.cfg ∧
      (s.ts.req.kind = 0x01#8 → ∀ i : Fin 16, i.val < s.bte.idx.val → b[i] = s.bte.buf[i]) ∧
      t.trace = s.trace ++ (if s.sr.master then [.stop] else [])

/-! ### Waits, hangs, rest -/

/-- 70 R289: in a quiescent state no agent but a producer has an enabled step; reset with the configuration done is quiescent; a reachable
block that has answered everything and completed its stop is quiescent again. -/
def Obligations.QuiescentRests : Prop :=
  (∀ (i : Instr) (s : State), Quiescent s → agentOf i ≠ .prod → innerStep i = false → exec i s = .next s) ∧
  Quiescent { State.reset with bpd.inited := true } ∧
  (∀ s : State, Reachable s → s.refused = false → s.ts.pc = .tsWait → s.reqch = [] → s.rspch = [] → s.ctl.stop = false →
    Quiescent s)

/-- 40 R125, 43 R219: while ENV takes no step, a block that waits in an address phase or whose data phase is incomplete, with no fault flag
set, stays there for any number of steps of the other agents, and no response is given. -/
def Obligations.WedgedBusHangs : Prop :=
  ∀ (n : Nat) (s t : State), BpdStuck s ∨ DataStuck s → NoEnvMoves s.agenda → Sys2Proof.core.run n s = .next t →
    t.ts = s.ts ∧ t.bpd = s.bpd ∧ t.bte = s.bte ∧ t.trace = s.trace ∧
    receivedResponses t.told ++ t.rspch = receivedResponses s.told ++ s.rspch

/-- 60 R252: with FAULT_EXIT false a fault that meets a BPD wait is never answered, whatever the agents do; in the data phase the fault is
handled either way; the default is true. -/
def Obligations.FaultExitFalseHangs : Prop :=
  (∀ (n : Nat) (s t : State), s.par.faultExit = false → s.ts.pc = .tsAddr → bpdWaits s = true → ¬NoFault s →
    (∀ e ∈ s.agenda, Owned e = true) → Sys2Proof.core.run n s = .next t →
    t.ts = s.ts ∧ t.bpd = s.bpd ∧ ¬NoFault t ∧
    receivedResponses t.told ++ t.rspch = receivedResponses s.told ++ s.rspch) ∧
  (∀ s : State, s.ts.pc = .tsData → ¬NoFault s →
    exec .tsDataFault s = .next { s with ts.status := .error, ts.pc := .tsFinish }) ∧
  State.reset.par.faultExit = true

/-! ### Whole transactions -/

/-- 42 R190: a Write that meets no fault, from request to response, with what it puts on the wire. -/
def Obligations.WriteEndToEnd : Prop :=
  ∀ (k : Nat) (r : TransferRequest) (rest : List Stimulus) (s : State),
    ReadyFor k s → isWrite r = true → admitted r = true → s.agenda = writeMoves k r ++ rest →
    ∃ t q, Sys2Proof.core.run (writeMoves k r).length s = .next t ∧ t.agenda = rest ∧ ReadyFor k t ∧
      t.trace = s.trace ++ writeFrame r ∧ t.told = s.told ++ [.accepted k r, .received k q] ∧
      q.status = .success ∧ q.length.val = r.length.toNat ∧ t.ctl.ack = s.ctl.ack

/-- 42 R191: a Read that meets no fault, with the bytes the target sends in the response, in order. -/
def Obligations.ReadEndToEnd : Prop :=
  ∀ (k : Nat) (r : TransferRequest) (bytes : List Byte) (rest : List Stimulus) (s : State),
    ReadyFor k s → isRead r = true → admitted r = true → bytes.length = r.length.toNat → s.agenda = readMoves k r bytes ++ rest →
    ∃ t q, Sys2Proof.core.run (readMoves k r bytes).length s = .next t ∧ t.agenda = rest ∧ ReadyFor k t ∧
      t.trace = s.trace ++ readFrame r bytes ∧ t.told = s.told ++ [.accepted k r, .received k q] ∧
      q.status = .success ∧ q.length.val = r.length.toNat ∧ firstBytes q.length.val q.buffer = bytes ∧
      t.ctl.ack = decide (r.length.toNat ≠ 1)

/-- 42 R190, R191: an address byte answered NACK gives `S, A(.., NACK), P` and the response `{Error, 0}`, when the BPD's waits end on a
fault. -/
def Obligations.AddressNackEndToEnd : Prop :=
  ∀ (k : Nat) (r : TransferRequest) (rest : List Stimulus) (s : State),
    ReadyFor k s → s.par.faultExit = true → admitted r = true → s.agenda = addressNackMoves k r ++ rest →
    ∃ t q, Sys2Proof.core.run (addressNackMoves k r).length s = .next t ∧ t.agenda = rest ∧ ReadyFor k t ∧
      t.trace = s.trace ++ [.start, .addr (wireByte r.deviceAddress (isRead r)) .nack, .stop] ∧
      t.told = s.told ++ [.accepted k r, .received k q] ∧ q.status = .error ∧ q.length = 0 ∧ t.ctl.ack = s.ctl.ack

/-- 42 R190: a Write whose byte `j` is answered NACK gives the response `{Error, j}`, and no byte after `j` is sent. -/
def Obligations.ByteNackEndToEnd : Prop :=
  ∀ (k j : Nat) (r : TransferRequest) (rest : List Stimulus) (s : State),
    ReadyFor k s → isWrite r = true → admitted r = true → j < r.length.toNat → s.agenda = byteNackMoves k r j ++ rest →
    ∃ t q, Sys2Proof.core.run (byteNackMoves k r j).length s = .next t ∧ t.agenda = rest ∧ ReadyFor k t ∧
      t.trace = s.trace ++ [.start, .addr (wireByte r.deviceAddress false) .ack] ++
        (firstBytes j r.payload).map (fun b => .wr b .ack) ++ [.wr (r.payload.toList.getD j 0) .nack, .stop] ∧
      t.told = s.told ++ [.accepted k r, .received k q] ∧ q.status = .error ∧ q.length.val = j

/-- 42 R191: a Read cut by a bus error or a lost arbitration after `j` bytes gives `{Error, j}` with the bytes received; `P` is on the wire
after a bus error and not after a lost arbitration. -/
def Obligations.ReadCutByFault : Prop :=
  ∀ (k : Nat) (r : TransferRequest) (bytes : List Byte) (fault : Instr) (rest : List Stimulus) (s : State),
    ReadyFor k s → isRead r = true → admitted r = true → bytes.length < r.length.toNat →
    fault = .envBusError ∨ fault = .envArbLost → s.agenda = cutReadMoves k r bytes fault ++ rest →
    ∃ t q, Sys2Proof.core.run (cutReadMoves k r bytes fault).length s = .next t ∧ t.agenda = rest ∧ ReadyFor k t ∧
      t.trace = s.trace ++ [.start, .addr (wireByte r.deviceAddress true) .ack] ++ bytes.map (fun b => .rd b .ack) ++
        (if fault = .envBusError then [.stop] else []) ∧
      t.told = s.told ++ [.accepted k r, .received k q] ∧ q.status = .error ∧ q.length.val = bytes.length ∧
      firstBytes q.length.val q.buffer = bytes

/-- 20 R75: requests issued strictly one at a time are answered in send order, for a sequence of any length (here with no fault and with
the stop completed before the response is taken). -/
def Obligations.OneAtATime : Prop :=
  ∀ (k : Nat) (jobs : List (TransferRequest × List Byte)) (rest : List Stimulus) (s : State),
    ReadyFor k s → (∀ j ∈ jobs, JobOk j) → s.agenda = oneAtATime k jobs ++ rest →
    ∃ t qs, Sys2Proof.core.run (oneAtATime k jobs).length s = .next t ∧ t.agenda = rest ∧ ReadyFor k t ∧
      acceptedRequests t.told = acceptedRequests s.told ++ jobs.map Prod.fst ∧
      receivedResponses t.told = receivedResponses s.told ++ qs ∧ List.Forall₂ JobAnswered jobs qs

/-- 20 R68, 30 R107, under the fixture of 95 section 5: `EERD off, n` returns the `n` bytes stored from `off` on and leaves the target's
memory as it was, so a second EERD at the same offset returns the same bytes (testable property 8). -/
def Obligations.EepromReadReturnsStored : Prop :=
  ∀ (k : Nat) (off : BitVec 9) (n : Byte) (rest : List Stimulus) (b : Bench),
    ReadyFor k b.block → b.target.base.getLsbD 0 = false → 1 ≤ n.toNat → n.toNat ≤ 16 →
    b.block.agenda = eerdMoves k b.target off n ++ rest →
    ∃ c q₁ q₂, Bench.run (eerdMoves k b.target off n).length b = some c ∧ c.block.agenda = rest ∧ ReadyFor k c.block ∧
      c.target.base = b.target.base ∧ c.target.mem = b.target.mem ∧
      receivedResponses c.block.told = receivedResponses b.block.told ++ [q₁, q₂] ∧
      q₂.status = .success ∧ q₂.length.val = n.toNat ∧ firstBytes n.toNat q₂.buffer = storedBytes b.target off n.toNat

/-- 30 R107, under the fixture of 95 section 5: `EEWR off, data` inside one page stores the data from `off` on and changes no other byte of
the target. -/
def Obligations.EepromWriteStores : Prop :=
  ∀ (k : Nat) (off : BitVec 9) (data : List Byte) (rest : List Stimulus) (b : Bench),
    ReadyFor k b.block → b.target.base.getLsbD 0 = false → Memory.wf b.target.mem = true →
    data.length ≤ 15 → off.toNat % 16 + data.length ≤ 16 →
    b.block.agenda = writeMoves k (eewrRequest b.target off data) ++ rest →
    ∃ c, Bench.run (writeMoves k (eewrRequest b.target off data)).length b = some c ∧ c.block.agenda = rest ∧
      ReadyFor k c.block ∧ c.target.base = b.target.base ∧ Memory.wf c.target.mem = true ∧
      (∀ i, i < data.length → Memory.read c.target.mem (off.toNat + i) = data.getD i 0) ∧
      (∀ a, ¬(off.toNat ≤ a ∧ a < off.toNat + data.length) → Memory.read c.target.mem a = Memory.read b.target.mem a)
end

