-- ==== Sys2Proof/Laws/State.lean ====
section
/-! SUPPORT. One lemma per field per named update of the state, true by computation, so that no proof unfolds an update. -/

namespace Sys2Proof.Machine

@[simp] theorem refuse_bpd (s : State) : (refuse s).bpd = s.bpd := rfl
@[simp] theorem refuse_dr (s : State) : (refuse s).dr = s.dr := rfl
@[simp] theorem refuse_ctl (s : State) : (refuse s).ctl = s.ctl := rfl
@[simp] theorem refuse_cfg (s : State) : (refuse s).cfg = s.cfg := rfl
@[simp] theorem refuse_sr (s : State) : (refuse s).sr = s.sr := rfl
@[simp] theorem refuse_hid (s : State) : (refuse s).hid = s.hid := rfl
@[simp] theorem refuse_bte (s : State) : (refuse s).bte = s.bte := rfl
@[simp] theorem refuse_ts (s : State) : (refuse s).ts = s.ts := rfl
@[simp] theorem refuse_reqch (s : State) : (refuse s).reqch = s.reqch := rfl
@[simp] theorem refuse_rspch (s : State) : (refuse s).rspch = s.rspch := rfl
@[simp] theorem refuse_trace (s : State) : (refuse s).trace = s.trace := rfl
@[simp] theorem refuse_refused (s : State) : (refuse s).refused = true := rfl
@[simp] theorem refuse_par (s : State) : (refuse s).par = s.par := rfl
@[simp] theorem refuse_agenda (s : State) : (refuse s).agenda = s.agenda := rfl
@[simp] theorem refuse_draws (s : State) : (refuse s).draws = s.draws := rfl
@[simp] theorem refuse_told (s : State) : (refuse s).told = s.told := rfl

@[simp] theorem emit_bpd (e : WireEvent) (s : State) : (emit e s).bpd = s.bpd := rfl
@[simp] theorem emit_dr (e : WireEvent) (s : State) : (emit e s).dr = s.dr := rfl
@[simp] theorem emit_ctl (e : WireEvent) (s : State) : (emit e s).ctl = s.ctl := rfl
@[simp] theorem emit_cfg (e : WireEvent) (s : State) : (emit e s).cfg = s.cfg := rfl
@[simp] theorem emit_sr (e : WireEvent) (s : State) : (emit e s).sr = s.sr := rfl
@[simp] theorem emit_hid (e : WireEvent) (s : State) : (emit e s).hid = s.hid := rfl
@[simp] theorem emit_bte (e : WireEvent) (s : State) : (emit e s).bte = s.bte := rfl
@[simp] theorem emit_ts (e : WireEvent) (s : State) : (emit e s).ts = s.ts := rfl
@[simp] theorem emit_reqch (e : WireEvent) (s : State) : (emit e s).reqch = s.reqch := rfl
@[simp] theorem emit_rspch (e : WireEvent) (s : State) : (emit e s).rspch = s.rspch := rfl
@[simp] theorem emit_trace (e : WireEvent) (s : State) : (emit e s).trace = s.trace ++ [e] := rfl
@[simp] theorem emit_refused (e : WireEvent) (s : State) : (emit e s).refused = s.refused := rfl
@[simp] theorem emit_par (e : WireEvent) (s : State) : (emit e s).par = s.par := rfl
@[simp] theorem emit_agenda (e : WireEvent) (s : State) : (emit e s).agenda = s.agenda := rfl
@[simp] theorem emit_draws (e : WireEvent) (s : State) : (emit e s).draws = s.draws := rfl
@[simp] theorem emit_told (e : WireEvent) (s : State) : (emit e s).told = s.told := rfl

@[simp] theorem tell_bpd (n : ProducerNote) (s : State) : (tell n s).bpd = s.bpd := rfl
@[simp] theorem tell_dr (n : ProducerNote) (s : State) : (tell n s).dr = s.dr := rfl
@[simp] theorem tell_ctl (n : ProducerNote) (s : State) : (tell n s).ctl = s.ctl := rfl
@[simp] theorem tell_cfg (n : ProducerNote) (s : State) : (tell n s).cfg = s.cfg := rfl
@[simp] theorem tell_sr (n : ProducerNote) (s : State) : (tell n s).sr = s.sr := rfl
@[simp] theorem tell_hid (n : ProducerNote) (s : State) : (tell n s).hid = s.hid := rfl
@[simp] theorem tell_bte (n : ProducerNote) (s : State) : (tell n s).bte = s.bte := rfl
@[simp] theorem tell_ts (n : ProducerNote) (s : State) : (tell n s).ts = s.ts := rfl
@[simp] theorem tell_reqch (n : ProducerNote) (s : State) : (tell n s).reqch = s.reqch := rfl
@[simp] theorem tell_rspch (n : ProducerNote) (s : State) : (tell n s).rspch = s.rspch := rfl
@[simp] theorem tell_trace (n : ProducerNote) (s : State) : (tell n s).trace = s.trace := rfl
@[simp] theorem tell_refused (n : ProducerNote) (s : State) : (tell n s).refused = s.refused := rfl
@[simp] theorem tell_par (n : ProducerNote) (s : State) : (tell n s).par = s.par := rfl
@[simp] theorem tell_agenda (n : ProducerNote) (s : State) : (tell n s).agenda = s.agenda := rfl
@[simp] theorem tell_draws (n : ProducerNote) (s : State) : (tell n s).draws = s.draws := rfl
@[simp] theorem tell_told (n : ProducerNote) (s : State) : (tell n s).told = s.told ++ [n] := rfl

@[simp] theorem accept_bpd (k : Nat) (r : TransferRequest) (s : State) : (accept k r s).bpd = s.bpd := rfl
@[simp] theorem accept_dr (k : Nat) (r : TransferRequest) (s : State) : (accept k r s).dr = s.dr := rfl
@[simp] theorem accept_ctl (k : Nat) (r : TransferRequest) (s : State) : (accept k r s).ctl = s.ctl := rfl
@[simp] theorem accept_cfg (k : Nat) (r : TransferRequest) (s : State) : (accept k r s).cfg = s.cfg := rfl
@[simp] theorem accept_sr (k : Nat) (r : TransferRequest) (s : State) : (accept k r s).sr = s.sr := rfl
@[simp] theorem accept_hid (k : Nat) (r : TransferRequest) (s : State) : (accept k r s).hid = s.hid := rfl
@[simp] theorem accept_bte (k : Nat) (r : TransferRequest) (s : State) : (accept k r s).bte = s.bte := rfl
@[simp] theorem accept_ts (k : Nat) (r : TransferRequest) (s : State) : (accept k r s).ts = s.ts := rfl
@[simp] theorem accept_reqch (k : Nat) (r : TransferRequest) (s : State) : (accept k r s).reqch = s.reqch ++ [r] := rfl
@[simp] theorem accept_rspch (k : Nat) (r : TransferRequest) (s : State) : (accept k r s).rspch = s.rspch := rfl
@[simp] theorem accept_trace (k : Nat) (r : TransferRequest) (s : State) : (accept k r s).trace = s.trace := rfl
@[simp] theorem accept_refused (k : Nat) (r : TransferRequest) (s : State) : (accept k r s).refused = s.refused := rfl
@[simp] theorem accept_par (k : Nat) (r : TransferRequest) (s : State) : (accept k r s).par = s.par := rfl
@[simp] theorem accept_agenda (k : Nat) (r : TransferRequest) (s : State) : (accept k r s).agenda = s.agenda := rfl
@[simp] theorem accept_draws (k : Nat) (r : TransferRequest) (s : State) : (accept k r s).draws = s.draws := rfl
@[simp] theorem accept_told (k : Nat) (r : TransferRequest) (s : State) : (accept k r s).told = s.told ++ [.accepted k r] := rfl

@[simp] theorem reject_bpd (k : Nat) (r : TransferRequest) (s : State) : (reject k r s).bpd = s.bpd := rfl
@[simp] theorem reject_dr (k : Nat) (r : TransferRequest) (s : State) : (reject k r s).dr = s.dr := rfl
@[simp] theorem reject_ctl (k : Nat) (r : TransferRequest) (s : State) : (reject k r s).ctl = s.ctl := rfl
@[simp] theorem reject_cfg (k : Nat) (r : TransferRequest) (s : State) : (reject k r s).cfg = s.cfg := rfl
@[simp] theorem reject_sr (k : Nat) (r : TransferRequest) (s : State) : (reject k r s).sr = s.sr := rfl
@[simp] theorem reject_hid (k : Nat) (r : TransferRequest) (s : State) : (reject k r s).hid = s.hid := rfl
@[simp] theorem reject_bte (k : Nat) (r : TransferRequest) (s : State) : (reject k r s).bte = s.bte := rfl
@[simp] theorem reject_ts (k : Nat) (r : TransferRequest) (s : State) : (reject k r s).ts = s.ts := rfl
@[simp] theorem reject_reqch (k : Nat) (r : TransferRequest) (s : State) : (reject k r s).reqch = s.reqch := rfl
@[simp] theorem reject_rspch (k : Nat) (r : TransferRequest) (s : State) : (reject k r s).rspch = s.rspch := rfl
@[simp] theorem reject_trace (k : Nat) (r : TransferRequest) (s : State) : (reject k r s).trace = s.trace := rfl
@[simp] theorem reject_refused (k : Nat) (r : TransferRequest) (s : State) : (reject k r s).refused = s.refused := rfl
@[simp] theorem reject_par (k : Nat) (r : TransferRequest) (s : State) : (reject k r s).par = s.par := rfl
@[simp] theorem reject_agenda (k : Nat) (r : TransferRequest) (s : State) : (reject k r s).agenda = s.agenda := rfl
@[simp] theorem reject_draws (k : Nat) (r : TransferRequest) (s : State) : (reject k r s).draws = s.draws := rfl
@[simp] theorem reject_told (k : Nat) (r : TransferRequest) (s : State) : (reject k r s).told = s.told ++ [.rejected k r] := rfl

@[simp] theorem disarmEngine_bpd (s : State) : (disarmEngine s).bpd = s.bpd := rfl
@[simp] theorem disarmEngine_dr (s : State) : (disarmEngine s).dr = s.dr := rfl
@[simp] theorem disarmEngine_ctl (s : State) : (disarmEngine s).ctl = s.ctl := rfl
@[simp] theorem disarmEngine_cfg (s : State) : (disarmEngine s).cfg = s.cfg := rfl
@[simp] theorem disarmEngine_sr (s : State) : (disarmEngine s).sr = s.sr := rfl
@[simp] theorem disarmEngine_hid (s : State) : (disarmEngine s).hid = s.hid := rfl
@[simp] theorem disarmEngine_bte (s : State) : (disarmEngine s).bte = { s.bte with armed := false } := rfl
@[simp] theorem disarmEngine_ts (s : State) : (disarmEngine s).ts = s.ts := rfl
@[simp] theorem disarmEngine_reqch (s : State) : (disarmEngine s).reqch = s.reqch := rfl
@[simp] theorem disarmEngine_rspch (s : State) : (disarmEngine s).rspch = s.rspch := rfl
@[simp] theorem disarmEngine_trace (s : State) : (disarmEngine s).trace = s.trace := rfl
@[simp] theorem disarmEngine_refused (s : State) : (disarmEngine s).refused = s.refused := rfl
@[simp] theorem disarmEngine_par (s : State) : (disarmEngine s).par = s.par := rfl
@[simp] theorem disarmEngine_agenda (s : State) : (disarmEngine s).agenda = s.agenda := rfl
@[simp] theorem disarmEngine_draws (s : State) : (disarmEngine s).draws = s.draws := rfl
@[simp] theorem disarmEngine_told (s : State) : (disarmEngine s).told = s.told := rfl

@[simp] theorem latchOutcome_bpd (st : Status) (s : State) : (latchOutcome st s).bpd = s.bpd := rfl
@[simp] theorem latchOutcome_dr (st : Status) (s : State) : (latchOutcome st s).dr = s.dr := rfl
@[simp] theorem latchOutcome_ctl (st : Status) (s : State) : (latchOutcome st s).ctl = s.ctl := rfl
@[simp] theorem latchOutcome_cfg (st : Status) (s : State) : (latchOutcome st s).cfg = s.cfg := rfl
@[simp] theorem latchOutcome_sr (st : Status) (s : State) : (latchOutcome st s).sr = s.sr := rfl
@[simp] theorem latchOutcome_hid (st : Status) (s : State) : (latchOutcome st s).hid = s.hid := rfl
@[simp] theorem latchOutcome_bte (st : Status) (s : State) : (latchOutcome st s).bte = s.bte := rfl
@[simp] theorem latchOutcome_ts (st : Status) (s : State) : (latchOutcome st s).ts = { s.ts with status := st, pc := .tsFinish } := rfl
@[simp] theorem latchOutcome_reqch (st : Status) (s : State) : (latchOutcome st s).reqch = s.reqch := rfl
@[simp] theorem latchOutcome_rspch (st : Status) (s : State) : (latchOutcome st s).rspch = s.rspch := rfl
@[simp] theorem latchOutcome_trace (st : Status) (s : State) : (latchOutcome st s).trace = s.trace := rfl
@[simp] theorem latchOutcome_refused (st : Status) (s : State) : (latchOutcome st s).refused = s.refused := rfl
@[simp] theorem latchOutcome_par (st : Status) (s : State) : (latchOutcome st s).par = s.par := rfl
@[simp] theorem latchOutcome_agenda (st : Status) (s : State) : (latchOutcome st s).agenda = s.agenda := rfl
@[simp] theorem latchOutcome_draws (st : Status) (s : State) : (latchOutcome st s).draws = s.draws := rfl
@[simp] theorem latchOutcome_told (st : Status) (s : State) : (latchOutcome st s).told = s.told := rfl

@[simp] theorem putResponse_bpd (s : State) : (putResponse s).bpd = s.bpd := rfl
@[simp] theorem putResponse_dr (s : State) : (putResponse s).dr = s.dr := rfl
@[simp] theorem putResponse_ctl (s : State) : (putResponse s).ctl = s.ctl := rfl
@[simp] theorem putResponse_cfg (s : State) : (putResponse s).cfg = s.cfg := rfl
@[simp] theorem putResponse_sr (s : State) : (putResponse s).sr = s.sr := rfl
@[simp] theorem putResponse_hid (s : State) : (putResponse s).hid = s.hid := rfl
@[simp] theorem putResponse_bte (s : State) : (putResponse s).bte = s.bte := rfl
@[simp] theorem putResponse_ts (s : State) : (putResponse s).ts = { s.ts with pc := .tsWait } := rfl
@[simp] theorem putResponse_reqch (s : State) : (putResponse s).reqch = s.reqch := rfl
@[simp] theorem putResponse_rspch (s : State) : (putResponse s).rspch = s.rspch ++ [s.ts.rsp] := rfl
@[simp] theorem putResponse_trace (s : State) : (putResponse s).trace = s.trace := rfl
@[simp] theorem putResponse_refused (s : State) : (putResponse s).refused = s.refused := rfl
@[simp] theorem putResponse_par (s : State) : (putResponse s).par = s.par := rfl
@[simp] theorem putResponse_agenda (s : State) : (putResponse s).agenda = s.agenda := rfl
@[simp] theorem putResponse_draws (s : State) : (putResponse s).draws = s.draws := rfl
@[simp] theorem putResponse_told (s : State) : (putResponse s).told = s.told := rfl

@[simp] theorem configure_bpd (c : CfgRecord) (s : State) : (configure c s).bpd = { s.bpd with inited := true } := rfl
@[simp] theorem configure_dr (c : CfgRecord) (s : State) : (configure c s).dr = s.dr := rfl
@[simp] theorem configure_ctl (c : CfgRecord) (s : State) : (configure c s).ctl = { s.ctl with bteEn := true, last := true } := rfl
@[simp] theorem configure_cfg (c : CfgRecord) (s : State) : (configure c s).cfg = c := rfl
@[simp] theorem configure_sr (c : CfgRecord) (s : State) : (configure c s).sr = s.sr := rfl
@[simp] theorem configure_hid (c : CfgRecord) (s : State) : (configure c s).hid = s.hid := rfl
@[simp] theorem configure_bte (c : CfgRecord) (s : State) : (configure c s).bte = s.bte := rfl
@[simp] theorem configure_ts (c : CfgRecord) (s : State) : (configure c s).ts = s.ts := rfl
@[simp] theorem configure_reqch (c : CfgRecord) (s : State) : (configure c s).reqch = s.reqch := rfl
@[simp] theorem configure_rspch (c : CfgRecord) (s : State) : (configure c s).rspch = s.rspch := rfl
@[simp] theorem configure_trace (c : CfgRecord) (s : State) : (configure c s).trace = s.trace := rfl
@[simp] theorem configure_refused (c : CfgRecord) (s : State) : (configure c s).refused = s.refused := rfl
@[simp] theorem configure_par (c : CfgRecord) (s : State) : (configure c s).par = s.par := rfl
@[simp] theorem configure_agenda (c : CfgRecord) (s : State) : (configure c s).agenda = s.agenda := rfl
@[simp] theorem configure_draws (c : CfgRecord) (s : State) : (configure c s).draws = s.draws := rfl
@[simp] theorem configure_told (c : CfgRecord) (s : State) : (configure c s).told = s.told := rfl

@[simp] theorem writeAddressByte_bpd (p : BpdPc) (s : State) : (writeAddressByte p s).bpd = { s.bpd with pc := p } := rfl
@[simp] theorem writeAddressByte_dr (p : BpdPc) (s : State) : (writeAddressByte p s).dr = wireByte s.bpd.a s.bpd.rw := rfl
@[simp] theorem writeAddressByte_ctl (p : BpdPc) (s : State) : (writeAddressByte p s).ctl = s.ctl := rfl
@[simp] theorem writeAddressByte_cfg (p : BpdPc) (s : State) : (writeAddressByte p s).cfg = s.cfg := rfl
@[simp] theorem writeAddressByte_sr (p : BpdPc) (s : State) : (writeAddressByte p s).sr = { s.sr with startSent := false } := rfl
@[simp] theorem writeAddressByte_hid (p : BpdPc) (s : State) : (writeAddressByte p s).hid = { s.hid with addrPending := true } := rfl
@[simp] theorem writeAddressByte_bte (p : BpdPc) (s : State) : (writeAddressByte p s).bte = s.bte := rfl
@[simp] theorem writeAddressByte_ts (p : BpdPc) (s : State) : (writeAddressByte p s).ts = s.ts := rfl
@[simp] theorem writeAddressByte_reqch (p : BpdPc) (s : State) : (writeAddressByte p s).reqch = s.reqch := rfl
@[simp] theorem writeAddressByte_rspch (p : BpdPc) (s : State) : (writeAddressByte p s).rspch = s.rspch := rfl
@[simp] theorem writeAddressByte_trace (p : BpdPc) (s : State) : (writeAddressByte p s).trace = s.trace := rfl
@[simp] theorem writeAddressByte_refused (p : BpdPc) (s : State) : (writeAddressByte p s).refused = s.refused := rfl
@[simp] theorem writeAddressByte_par (p : BpdPc) (s : State) : (writeAddressByte p s).par = s.par := rfl
@[simp] theorem writeAddressByte_agenda (p : BpdPc) (s : State) : (writeAddressByte p s).agenda = s.agenda := rfl
@[simp] theorem writeAddressByte_draws (p : BpdPc) (s : State) : (writeAddressByte p s).draws = s.draws := rfl
@[simp] theorem writeAddressByte_told (p : BpdPc) (s : State) : (writeAddressByte p s).told = s.told := rfl

@[simp] theorem takeByte_bpd (i : Fin 16) (b : Byte) (s : State) : (takeByte i b s).bpd = s.bpd := rfl
@[simp] theorem takeByte_dr (i : Fin 16) (b : Byte) (s : State) : (takeByte i b s).dr = b := rfl
@[simp] theorem takeByte_ctl (i : Fin 16) (b : Byte) (s : State) : (takeByte i b s).ctl = s.ctl := rfl
@[simp] theorem takeByte_cfg (i : Fin 16) (b : Byte) (s : State) : (takeByte i b s).cfg = s.cfg := rfl
@[simp] theorem takeByte_sr (i : Fin 16) (b : Byte) (s : State) : (takeByte i b s).sr = s.sr := rfl
@[simp] theorem takeByte_hid (i : Fin 16) (b : Byte) (s : State) : (takeByte i b s).hid = { s.hid with rxClosed := s.hid.rxClosed || readAnswer s.ctl.ack s.ctl.last s.bte.idx s.bte.n == .nack } := rfl
@[simp] theorem takeByte_bte (i : Fin 16) (b : Byte) (s : State) : (takeByte i b s).bte = { s.bte with buf := s.bte.buf.set i b, idx := i.succ } := rfl
@[simp] theorem takeByte_ts (i : Fin 16) (b : Byte) (s : State) : (takeByte i b s).ts = s.ts := rfl
@[simp] theorem takeByte_reqch (i : Fin 16) (b : Byte) (s : State) : (takeByte i b s).reqch = s.reqch := rfl
@[simp] theorem takeByte_rspch (i : Fin 16) (b : Byte) (s : State) : (takeByte i b s).rspch = s.rspch := rfl
@[simp] theorem takeByte_trace (i : Fin 16) (b : Byte) (s : State) : (takeByte i b s).trace = s.trace ++ [.rd b (readAnswer s.ctl.ack s.ctl.last s.bte.idx s.bte.n)] := rfl
@[simp] theorem takeByte_refused (i : Fin 16) (b : Byte) (s : State) : (takeByte i b s).refused = s.refused := rfl
@[simp] theorem takeByte_par (i : Fin 16) (b : Byte) (s : State) : (takeByte i b s).par = s.par := rfl
@[simp] theorem takeByte_agenda (i : Fin 16) (b : Byte) (s : State) : (takeByte i b s).agenda = s.agenda := rfl
@[simp] theorem takeByte_draws (i : Fin 16) (b : Byte) (s : State) : (takeByte i b s).draws = s.draws := rfl
@[simp] theorem takeByte_told (i : Fin 16) (b : Byte) (s : State) : (takeByte i b s).told = s.told := rfl

@[simp] theorem completeStop_bpd (s : State) : (completeStop s).bpd = s.bpd := by
  cases h : s.sr.master <;> simp [completeStop, h]
@[simp] theorem completeStop_dr (s : State) : (completeStop s).dr = s.dr := by
  cases h : s.sr.master <;> simp [completeStop, h]
@[simp] theorem completeStop_ctl (s : State) : (completeStop s).ctl = { s.ctl with stop := false } := by
  cases h : s.sr.master <;> simp [completeStop, h]
@[simp] theorem completeStop_cfg (s : State) : (completeStop s).cfg = s.cfg := by
  cases h : s.sr.master <;> simp [completeStop, h]
@[simp] theorem completeStop_sr (s : State) : (completeStop s).sr = { s.sr with master := false } := by
  cases h : s.sr.master <;> simp [completeStop, h]
@[simp] theorem completeStop_hid (s : State) : (completeStop s).hid = { s.hid with addrPending := false } := by
  cases h : s.sr.master <;> simp [completeStop, h]
@[simp] theorem completeStop_bte (s : State) : (completeStop s).bte = s.bte := by
  cases h : s.sr.master <;> simp [completeStop, h]
@[simp] theorem completeStop_ts (s : State) : (completeStop s).ts = s.ts := by
  cases h : s.sr.master <;> simp [completeStop, h]
@[simp] theorem completeStop_reqch (s : State) : (completeStop s).reqch = s.reqch := by
  cases h : s.sr.master <;> simp [completeStop, h]
@[simp] theorem completeStop_rspch (s : State) : (completeStop s).rspch = s.rspch := by
  cases h : s.sr.master <;> simp [completeStop, h]
@[simp] theorem completeStop_trace (s : State) : (completeStop s).trace = s.trace ++ (if s.sr.master then [.stop] else []) := by
  cases h : s.sr.master <;> simp [completeStop, h]
@[simp] theorem completeStop_refused (s : State) : (completeStop s).refused = s.refused := by
  cases h : s.sr.master <;> simp [completeStop, h]
@[simp] theorem completeStop_par (s : State) : (completeStop s).par = s.par := by
  cases h : s.sr.master <;> simp [completeStop, h]
@[simp] theorem completeStop_agenda (s : State) : (completeStop s).agenda = s.agenda := by
  cases h : s.sr.master <;> simp [completeStop, h]
@[simp] theorem completeStop_draws (s : State) : (completeStop s).draws = s.draws := by
  cases h : s.sr.master <;> simp [completeStop, h]
@[simp] theorem completeStop_told (s : State) : (completeStop s).told = s.told := by
  cases h : s.sr.master <;> simp [completeStop, h]

@[simp] theorem raiseFault_bpd (k : FaultKind) (s : State) : (raiseFault k s).bpd = s.bpd := by cases k <;> rfl
@[simp] theorem raiseFault_dr (k : FaultKind) (s : State) : (raiseFault k s).dr = s.dr := by cases k <;> rfl
@[simp] theorem raiseFault_ctl (k : FaultKind) (s : State) : (raiseFault k s).ctl = s.ctl := by cases k <;> rfl
@[simp] theorem raiseFault_cfg (k : FaultKind) (s : State) : (raiseFault k s).cfg = s.cfg := by cases k <;> rfl
@[simp] theorem raiseFault_bte (k : FaultKind) (s : State) : (raiseFault k s).bte = s.bte := by cases k <;> rfl
@[simp] theorem raiseFault_ts (k : FaultKind) (s : State) : (raiseFault k s).ts = s.ts := by cases k <;> rfl
@[simp] theorem raiseFault_reqch (k : FaultKind) (s : State) : (raiseFault k s).reqch = s.reqch := by cases k <;> rfl
@[simp] theorem raiseFault_rspch (k : FaultKind) (s : State) : (raiseFault k s).rspch = s.rspch := by cases k <;> rfl
@[simp] theorem raiseFault_trace (k : FaultKind) (s : State) : (raiseFault k s).trace = s.trace := by cases k <;> rfl
@[simp] theorem raiseFault_refused (k : FaultKind) (s : State) : (raiseFault k s).refused = s.refused := by cases k <;> rfl
@[simp] theorem raiseFault_par (k : FaultKind) (s : State) : (raiseFault k s).par = s.par := by cases k <;> rfl
@[simp] theorem raiseFault_agenda (k : FaultKind) (s : State) : (raiseFault k s).agenda = s.agenda := by cases k <;> rfl
@[simp] theorem raiseFault_draws (k : FaultKind) (s : State) : (raiseFault k s).draws = s.draws := by cases k <;> rfl
@[simp] theorem raiseFault_told (k : FaultKind) (s : State) : (raiseFault k s).told = s.told := by cases k <;> rfl
@[simp] theorem raiseFault_faultAny (k : FaultKind) (s : State) : faultAny (raiseFault k s) = true := by
  cases k <;> simp [raiseFault, setFaultFlag, faultAny]
@[simp] theorem raiseFault_addrPending (k : FaultKind) (s : State) :
    (raiseFault k s).hid.addrPending = (s.hid.addrPending && k != .arbitrationLost) := by
  cases k <;> simp [raiseFault]
@[simp] theorem raiseFault_rxClosed (k : FaultKind) (s : State) : (raiseFault k s).hid.rxClosed = s.hid.rxClosed := by
  cases k <;> rfl
@[simp] theorem raiseFault_master (k : FaultKind) (s : State) :
    (raiseFault k s).sr.master = (s.sr.master && k != .arbitrationLost) := by
  cases k <;> simp [raiseFault, setFaultFlag]
@[simp] theorem raiseFault_startSent (k : FaultKind) (s : State) : (raiseFault k s).sr.startSent = s.sr.startSent := by
  cases k <;> rfl
@[simp] theorem raiseFault_addrAcked (k : FaultKind) (s : State) : (raiseFault k s).sr.addrAcked = s.sr.addrAcked := by
  cases k <;> rfl

@[simp] theorem sendByte_bpd (i : Fin 16) (k : Answer) (s : State) : (sendByte i k s).bpd = s.bpd := by cases k <;> rfl
@[simp] theorem sendByte_ctl (i : Fin 16) (k : Answer) (s : State) : (sendByte i k s).ctl = s.ctl := by cases k <;> rfl
@[simp] theorem sendByte_cfg (i : Fin 16) (k : Answer) (s : State) : (sendByte i k s).cfg = s.cfg := by cases k <;> rfl
@[simp] theorem sendByte_hid (i : Fin 16) (k : Answer) (s : State) : (sendByte i k s).hid = s.hid := by cases k <;> rfl
@[simp] theorem sendByte_ts (i : Fin 16) (k : Answer) (s : State) : (sendByte i k s).ts = s.ts := by cases k <;> rfl
@[simp] theorem sendByte_reqch (i : Fin 16) (k : Answer) (s : State) : (sendByte i k s).reqch = s.reqch := by cases k <;> rfl
@[simp] theorem sendByte_rspch (i : Fin 16) (k : Answer) (s : State) : (sendByte i k s).rspch = s.rspch := by cases k <;> rfl
@[simp] theorem sendByte_refused (i : Fin 16) (k : Answer) (s : State) : (sendByte i k s).refused = s.refused := by cases k <;> rfl
@[simp] theorem sendByte_par (i : Fin 16) (k : Answer) (s : State) : (sendByte i k s).par = s.par := by cases k <;> rfl
@[simp] theorem sendByte_agenda (i : Fin 16) (k : Answer) (s : State) : (sendByte i k s).agenda = s.agenda := by cases k <;> rfl
@[simp] theorem sendByte_draws (i : Fin 16) (k : Answer) (s : State) : (sendByte i k s).draws = s.draws := by cases k <;> rfl
@[simp] theorem sendByte_told (i : Fin 16) (k : Answer) (s : State) : (sendByte i k s).told = s.told := by cases k <;> rfl
@[simp] theorem sendByte_dr (i : Fin 16) (k : Answer) (s : State) : (sendByte i k s).dr = s.bte.buf[i] := by cases k <;> rfl
@[simp] theorem sendByte_trace (i : Fin 16) (k : Answer) (s : State) :
    (sendByte i k s).trace = s.trace ++ [.wr s.bte.buf[i] k] := by cases k <;> rfl
@[simp] theorem sendByte_sr (i : Fin 16) (k : Answer) (s : State) :
    (sendByte i k s).sr = { s.sr with ackFail := s.sr.ackFail || k == .nack } := by
  cases k
  · simp [sendByte, emit, show (Answer.ack == Answer.nack) = false from rfl]
  · simp [sendByte, emit, raiseFault, setFaultFlag]
@[simp] theorem sendByte_bte (i : Fin 16) (k : Answer) (s : State) :
    (sendByte i k s).bte = { s.bte with idx := if k = .ack then i.succ else s.bte.idx } := by
  cases k <;> rfl

end Sys2Proof.Machine
end

