-- ==== Sys2Proof/Laws/Ops.lean ====
section
/-! SUPPORT. One lemma per shared operation that says once everything it can do, and one inversion lemma per meaning ("if it answers next,
then one of these cases holds"); proofs cite these instead of unfolding. -/

namespace Sys2Proof.Machine

/-! ### Operands -/

theorem operandCount_some {b : Byte} {c : Count} : operandCount b = some c ↔ 1 ≤ b.toNat ∧ b.toNat ≤ 16 ∧ c.val = b.toNat := by
  unfold operandCount
  split
  · rename_i h
    simp only [Option.some.injEq, Fin.ext_iff]
    omega
  · simp only [false_iff, reduceCtorEq]
    omega

theorem nextIndex_some {i n : Count} {j : Fin 16} : nextIndex i n = some j ↔ i.val < n.val ∧ j.val = i.val := by
  unfold nextIndex
  split
  · simp only [Option.some.injEq, Fin.ext_iff]
    omega
  · simp only [false_iff, reduceCtorEq]
    omega

theorem nextIndex_none {i n : Count} : nextIndex i n = none ↔ n.val ≤ i.val := by
  unfold nextIndex
  split <;> simp <;> omega

theorem admitted_iff (r : TransferRequest) :
    admitted r = true ↔ (isWrite r = true ∨ isRead r = true) ∧ 1 ≤ r.length.toNat ∧ r.length.toNat ≤ 16 := by
  simp [admitted, Option.isSome_iff_exists, operandCount_some]
  intro _ h1 h2
  exact ⟨⟨r.length.toNat, by omega⟩, rfl⟩

/-- Bit 0 of the address byte is the direction (30_encoding Table 30-4). -/
@[simp] theorem wireByte_getElem_zero (a : Byte) (rw : Bool) : (wireByte a rw)[0] = rw := by
  cases rw <;> revert a <;> decide

/-- Bits 7:1 of the address byte are the operand's low seven bits (30_encoding R96). -/
theorem wireByte_address (a : Byte) (rw : Bool) : (wireByte a rw).extractLsb' 1 7 = deviceAddress7 a := by
  cases rw <;> revert a <;> decide

/-- The address byte does not depend on bit 7 of the operand (30_encoding R96). -/
theorem wireByte_bit7 (a : Byte) (rw : Bool) : wireByte (a ||| 0x80#8) rw = wireByte (a &&& 0x7F#8) rw := by
  cases rw <;> revert a <;> decide

/-! ### Waiting and refusing -/

/-- A guarded step always answers next: its effect when enabled, nothing when not. -/
theorem stepWhen_next {pre : Bool} {eff s t : State} :
    stepWhen pre eff s = .next t ↔ (pre = true ∧ t = eff) ∨ (pre = false ∧ t = s) := by
  cases pre <;> simp [stepWhen, eq_comm]

theorem orRefuse_none (s : State) : orRefuse s none = refuse s := rfl
theorem orRefuse_some (s t : State) : orRefuse s (some t) = t := rfl

/-! ### The channels -/

/-- Everything an offered message can do: PR1, PR2, or nothing. -/
theorem offer_cases (k : Nat) (r : TransferRequest) (s : State) :
    (producer k s = true ∧ hasRoom s = true ∧ offer k r s = accept k r s) ∨
    (producer k s = true ∧ isFull s = true ∧ offer k r s = reject k r s) ∨ offer k r s = s := by
  unfold offer
  split
  · split
    · exact .inl ⟨‹_›, ‹_›, rfl⟩
    · split
      · exact .inr (.inl ⟨‹_›, ‹_›, rfl⟩)
      · exact .inr (.inr rfl)
  · exact .inr (.inr rfl)

/-- Everything a receive can do: PR3 on the front response, or nothing. -/
theorem receive_cases (k : Nat) (s : State) :
    (∃ q rest, producer k s = true ∧ s.rspch = q :: rest ∧ receive k s = tell (.received k q) { s with rspch := rest }) ∨
    receive k s = s := by
  unfold receive
  split
  · split
    · exact .inr rfl
    · exact .inl ⟨_, _, ‹_›, ‹_›, rfl⟩
  · exact .inr rfl

/-- A message that is taken is the front of the channel. -/
theorem receiveMessage_cases (k : Nat) (q : TransferResponse) (s : State) :
    (∃ rest, producer k s = true ∧ s.rspch = q :: rest ∧
      receiveMessage k q s = tell (.received k q) { s with rspch := rest }) ∨
    receiveMessage k q s = s := by
  unfold receiveMessage
  split
  · rename_i h
    obtain ⟨q', rest, hk, hq, he⟩ | he := receive_cases k s
    · simp only [hq, List.head?_cons, Option.some.injEq] at h
      subst h
      exact .inl ⟨rest, hk, hq, he⟩
    · exact .inr he
  · exact .inr rfl

/-! ### The commands -/

theorem beginWriteStart_some {a : Byte} {s t : State} :
    beginWriteStart a s = some t ↔ s.bpd.inited = true ∧ s.bpd.pc = .ready ∧
      t = { s with bpd.rw := false, bpd.a := a, bpd.pc := .wSb, ctl.start := true } := by
  simp [beginWriteStart, and_assoc, @eq_comm State t]

theorem beginReadStart_some {a n : Byte} {s t : State} :
    beginReadStart a n s = some t ↔ s.bpd.inited = true ∧ s.bpd.pc = .ready ∧ ∃ c, operandCount n = some c ∧
      t = { s with bpd.rw := true, bpd.a := a, bpd.size := c, bpd.pc := .wSb, hid.rxClosed := false, ctl.start := true } := by
  simp [beginReadStart, and_assoc, @eq_comm State t]

theorem endTransaction_some {s t : State} :
    endTransaction s = some t ↔ s.bpd.inited = true ∧ s.bpd.pc ≠ .ready ∧
      t = { s with ctl.stop := true, ctl.start := false, bpd.pc := .ready } := by
  simp [endTransaction, and_assoc, @eq_comm State t]

theorem armEngine_some {n : Byte} {s t : State} :
    armEngine n s = some t ↔ s.ctl.bteEn = true ∧ s.bte.armed = false ∧ inDataState s = true ∧ ∃ c, operandCount n = some c ∧
      t = { s with
        bte := ⟨true, s.bpd.pc == .dataR, c, 0, if s.bpd.pc == .dataW then s.ts.req.payload else s.bte.buf⟩ } := by
  simp [armEngine, and_assoc, @eq_comm State t]

/-- TS1 on an admitted request refuses, or opens the command its kind selects (42 R177, 30 R100). -/
theorem openRequest_cases (r : TransferRequest) (rest : List TransferRequest) (s : State) :
    openRequest r rest s = refuse s ∨
    (s.bpd.inited = true ∧ s.bpd.pc = .ready ∧ isRead r = false ∧ openRequest r rest s =
      { s with
        ts.req := r, reqch := rest, bte.n := 0, bte.idx := 0, ts.pc := .tsAddr
        bpd.rw := false, bpd.a := r.deviceAddress, bpd.pc := .wSb, ctl.start := true }) ∨
    (s.bpd.inited = true ∧ s.bpd.pc = .ready ∧ isRead r = true ∧ ∃ c, operandCount r.length = some c ∧ openRequest r rest s =
      { s with
        ts.req := r, reqch := rest, bte.n := 0, bte.idx := 0, ts.pc := .tsAddr
        bpd.rw := true, bpd.a := r.deviceAddress, bpd.size := c, bpd.pc := .wSb, hid.rxClosed := false, ctl.start := true }) := by
  unfold openRequest
  cases hr : isRead r
  · simp only [Bool.false_eq_true, ↓reduceIte]
    generalize hb : beginWriteStart _ _ = o
    cases o with
    | none => exact .inl rfl
    | some t =>
      obtain ⟨h1, h2, rfl⟩ := beginWriteStart_some.1 hb
      exact .inr (.inl ⟨h1, h2, trivial, rfl⟩)
  · simp only [↓reduceIte]
    generalize hb : beginReadStart _ _ _ = o
    cases o with
    | none => exact .inl rfl
    | some t =>
      obtain ⟨h1, h2, c, h3, rfl⟩ := beginReadStart_some.1 hb
      exact .inr (.inr ⟨h1, h2, trivial, c, h3, rfl⟩)

/-- TS2's effect refuses, or arms the engine with the request's length (42 R178). -/
theorem armRequest_cases (s : State) :
    orRefuse s ((armEngine s.ts.req.length s).map fun t => { t with ts.pc := .tsData }) = refuse s ∨
    (s.ctl.bteEn = true ∧ s.bte.armed = false ∧ inDataState s = true ∧ ∃ c, operandCount s.ts.req.length = some c ∧
      orRefuse s ((armEngine s.ts.req.length s).map fun t => { t with ts.pc := .tsData }) =
        { s with
          bte := ⟨true, s.bpd.pc == .dataR, c, 0, if s.bpd.pc == .dataW then s.ts.req.payload else s.bte.buf⟩
          ts.pc := .tsData }) := by
  generalize hb : armEngine s.ts.req.length s = o
  cases o with
  | none => exact .inl rfl
  | some t =>
    obtain ⟨h1, h2, h3, c, h4, rfl⟩ := armEngine_some.1 hb
    exact .inr ⟨h1, h2, h3, c, h4, rfl⟩

/-- TS6's effect refuses, or ends the transaction (42 R182). -/
theorem finishTransaction_cases (s : State) :
    orRefuse s (finishTransaction s) = refuse s ∨
    (s.bpd.inited = true ∧ s.bpd.pc ≠ .ready ∧ orRefuse s (finishTransaction s) =
      { s with
        bte.armed := false, ctl.stop := true, ctl.start := false, bpd.pc := .ready, sr := clearFlags s.sr
        hid.addrPending := false, ts.rsp := composeResponse s, ts.pc := .tsResp, draws := s.draws + 16 }) := by
  unfold finishTransaction
  generalize hb : endTransaction (disarmEngine s) = o
  cases o with
  | none => exact .inl rfl
  | some t =>
    obtain ⟨h1, h2, rfl⟩ := endTransaction_some.1 hb
    exact .inr ⟨h1, h2, rfl⟩

/-- A byte received in the response of a Read stands in its buffer (42 R183). -/
theorem responseBuffer_received (s : State) (i : Fin 16) (hr : isRead s.ts.req = true) (hi : i.val < s.bte.idx.val) :
    (responseBuffer s)[i] = s.bte.buf[i] := by
  simp [responseBuffer, hr, hi]

/-- Every other byte is a free byte (42 R183). -/
theorem responseBuffer_free (s : State) (i : Fin 16) (h : isRead s.ts.req = false ∨ s.bte.idx.val ≤ i.val) :
    (responseBuffer s)[i] = Config.freeByte (s.draws + i.val) := by
  rcases h with h | h
  · simp [responseBuffer, h]
  · simp [responseBuffer, Nat.not_lt.2 h]

/-! ### Inversion of the meanings that are more than one guard -/

theorem execTsDequeue_cases {s t : State} (h : execTsDequeue s = .next t) :
    t = s ∨ (∃ r rest, s.reqch = r :: rest ∧ s.ts.pc = .tsWait ∧ s.bpd.inited = true ∧
      ((admitted r = false ∧ t = refuse s) ∨ (admitted r = true ∧ t = openRequest r rest s))) := by
  unfold execTsDequeue at h
  split at h
  · exact .inl (by simpa using h.symm)
  · obtain ⟨hp, rfl⟩ | ⟨-, rfl⟩ := stepWhen_next.1 h
    · simp only [Bool.and_eq_true, beq_iff_eq] at hp
      refine .inr ⟨_, _, ‹_›, hp.1, hp.2, ?_⟩
      split <;> simp_all
    · exact .inl rfl

theorem execDataWbyte_cases {k : Answer} {s t : State} (h : execDataWbyte k s = .next t) :
    t = s ∨ (∃ i : Fin 16, i.val = s.bte.idx.val ∧ s.bte.idx.val < s.bte.n.val ∧ dataStepReady s = true ∧ s.bte.dir = false ∧
      s.bpd.pc = .dataW ∧ t = sendByte i k s) := by
  unfold execDataWbyte at h
  split at h
  · exact .inl (by simpa using h.symm)
  · rename_i i hi
    obtain ⟨hp, rfl⟩ | ⟨-, rfl⟩ := stepWhen_next.1 h
    · simp only [Bool.and_eq_true, beq_iff_eq, Bool.not_eq_eq_eq_not, Bool.not_true] at hp
      obtain ⟨h1, h2⟩ := nextIndex_some.1 hi
      exact .inr ⟨i, h2, h1, hp.1.1, hp.1.2, hp.2, rfl⟩
    · exact .inl rfl

theorem execDataRbyte_cases {b : Byte} {s t : State} (h : execDataRbyte b s = .next t) :
    t = s ∨ (∃ i : Fin 16, i.val = s.bte.idx.val ∧ s.bte.idx.val < s.bte.n.val ∧ dataStepReady s = true ∧ s.bte.dir = true ∧
      s.bpd.pc = .dataR ∧ s.hid.rxClosed = false ∧ t = takeByte i b s) := by
  unfold execDataRbyte at h
  split at h
  · exact .inl (by simpa using h.symm)
  · rename_i i hi
    obtain ⟨hp, rfl⟩ | ⟨-, rfl⟩ := stepWhen_next.1 h
    · simp only [Bool.and_eq_true, beq_iff_eq, Bool.not_eq_eq_eq_not, Bool.not_true] at hp
      obtain ⟨h1, h2⟩ := nextIndex_some.1 hi
      exact .inr ⟨i, h2, h1, hp.1.1.1, hp.1.1.2, hp.1.2, hp.2, rfl⟩
    · exact .inl rfl

theorem execCmdInit_cases {c : CfgRecord} {s t : State} (h : execCmdInit c s = .next t) :
    t = s ∨ t = refuse s ∨
      (s.bpd.inited = false ∧ cfgAccepted c = true ∧ s.bpd.pc = .ready ∧ s.ts.pc = .tsWait ∧ t = configure c s) := by
  unfold execCmdInit at h
  split at h
  · exact .inr (.inl (by simpa using h.symm))
  · rename_i hg
    obtain ⟨hp, rfl⟩ | ⟨-, rfl⟩ := stepWhen_next.1 h
    · simp only [Bool.and_eq_true, beq_iff_eq] at hp
      simp only [Bool.or_eq_true, Bool.not_eq_eq_eq_not, Bool.not_true, not_or, Bool.not_eq_true, Bool.not_eq_false] at hg
      exact .inr (.inr ⟨hg.1, hg.2, hp.1, hp.2, rfl⟩)
    · exact .inl rfl

/-! ### The step -/

/-- Everything one step can do. -/
theorem step_cases {s t : State} (h : step s = .next t) :
    s.refused = false ∧
    ((s.agenda = [] ∧ t = s) ∨
      ∃ e rest, s.agenda = e :: rest ∧
        ((∃ i, decode e = .ok i ∧ exec i { s with agenda := rest } = .next t) ∨
          ((∃ x, decode e = .error x) ∧ t = undecoded e { s with agenda := rest }))) := by
  unfold step at h
  split at h
  · simp at h
  · rename_i hr
    refine ⟨by simpa using hr, ?_⟩
    unfold fetch at h
    cases ha : s.agenda with
    | nil => simp [ha] at h; exact .inl ⟨rfl, h.symm⟩
    | cons e rest =>
      refine .inr ⟨e, rest, rfl, ?_⟩
      simp only [ha] at h
      split at h
      · exact .inl ⟨_, ‹_›, h⟩
      · exact .inr ⟨⟨_, ‹_›⟩, by simpa using h.symm⟩

/-- Sixteen bytes read back as the buffer they came from. -/
@[simp] theorem bufOfList_toList (p : Buf) : bufOfList p.toList = some p := by
  unfold bufOfList
  rw [dif_pos (by simp)]
  cases p
  simp [Vector.toList]

/-- Any 19 bytes are a request record, whatever stands in them (30 Table 30-1). -/
@[simp] theorem requestOfBytes_record (kind a n : Byte) (p : Buf) :
    requestOfBytes (kind :: a :: n :: p.toList) = some ⟨kind, a, n, p⟩ := by
  simp [requestOfBytes]

/-- Bytes of another number are no request record (30 R90). -/
theorem requestOfBytes_wrongLength {l : List Byte} (h : l.length ≠ 19) : requestOfBytes l = none := by
  unfold requestOfBytes
  split
  · rw [bufOfList, dif_neg (by simp only [List.length_cons] at h; omega)]
    rfl
  · rfl

/-- What arrives and is no instruction is offered to the request channel or refused (30 R101, R104). -/
theorem undecoded_cases (e : Stimulus) (s : State) :
    undecoded e s = refuse s ∨ ∃ k r, undecoded e s = offer k r s := by
  unfold undecoded
  split
  · split
    · exact .inr ⟨_, _, rfl⟩
    · exact .inl rfl
  · exact .inl rfl

end Sys2Proof.Machine
end

