-- ==== Sys2Proof/Laws/Exec.lean ====
section
/-! SUPPORT. Once for all instructions: the effects exec can have. A proof about every instruction takes cases on `Effect`. -/

namespace Sys2Proof.Machine

/-- Everything an instruction can do, as explicit states: nothing, a refusal, or its effect with what its `pre` says of the sequencers. -/
inductive Effect (s : State) : Instr → State → Prop
  | same i : Effect s i s
  | refuse i : Effect s i (Machine.refuse s)
  | offerWrite k a n p : Effect s (.reqWrite k a n p) (accept k ⟨0,a,n,p⟩ s)
  | rejectWrite k a n p : Effect s (.reqWrite k a n p) (reject k ⟨0,a,n,p⟩ s)
  | offerRead k a n p : Effect s (.reqRead k a n p) (accept k ⟨1,a,n,p⟩ s)
  | rejectRead k a n p : Effect s (.reqRead k a n p) (reject k ⟨1,a,n,p⟩ s)
  | takeSuccess k n b q rest (h : s.rspch = q :: rest) : Effect s (.rspSuccess k n b) (Machine.tell (.received k q) { s with rspch := rest })
  | takeError k n b q rest (h : s.rspch = q :: rest) : Effect s (.rspError k n b) (Machine.tell (.received k q) { s with rspch := rest })
  | recv k q rest (h : s.rspch = q :: rest) : Effect s (.chRecv k) (Machine.tell (.received k q) { s with rspch := rest })
  | init c (h : s.bpd.inited = false) : Effect s (.cmdInit c) (configure c s)
  | bw1 a (h : s.bpd.pc = .ready) : Effect s (.cmdBeginWrite (.bw1 a)) { s with bpd.rw := false, bpd.a := a, bpd.pc := .wSb, ctl.start := true }
  | bw2 (h : s.bpd.pc = .wSb) : Effect s (.cmdBeginWrite .bw2) { s with bpd.pc := .sendAddr }
  | bw3 (h : s.bpd.pc = .sendAddr) : Effect s (.cmdBeginWrite .bw3) (writeAddressByte .wAmW s)
  | bw4 (h : s.bpd.pc = .wAmW) : Effect s (.cmdBeginWrite .bw4) { s with sr.addrAcked := false, bpd.pc := .dataW }
  | br1 a n c (h : s.bpd.pc = .ready) : Effect s (.cmdBeginRead (.br1 a n)) { s with bpd.rw := true, bpd.a := a, bpd.size := c, bpd.pc := .wSb, hid.rxClosed := false, ctl.start := true }
  | br2 (h : s.bpd.pc = .wSb) : Effect s (.cmdBeginRead .br2) { s with bpd.pc := .sendAddr }
  | br3 (h : s.bpd.pc = .sendAddr) : Effect s (.cmdBeginRead .br3) (writeAddressByte .wAddrR s)
  | br4 (h : s.bpd.pc = .wAddrR) : Effect s (.cmdBeginRead .br4) { s with bpd.pc := .cfgAck }
  | br5 (h : s.bpd.pc = .cfgAck) : Effect s (.cmdBeginRead .br5) { s with ctl.ack := ackBit s.bpd.size, bpd.pc := .wMslR }
  | br6 (h : s.bpd.pc = .wMslR) : Effect s (.cmdBeginRead .br6) { s with sr.addrAcked := false, bpd.pc := .dataR }
  | endTransaction : Effect s .cmdEnd { s with ctl.stop := true, ctl.start := false, bpd.pc := .ready }
  | waWrite a (h : s.bpd.pc = .sendAddr) : Effect s (.waWrite a) (writeAddressByte .wAmW s)
  | waRead a (h : s.bpd.pc = .sendAddr) : Effect s (.waRead a) (writeAddressByte .wAddrR s)
  | enq k r : Effect s (.chEnq k r) (accept k r s)
  | enqReject k r : Effect s (.chEnqReject k r) (reject k r s)
  | dequeueWrite r rest (h : s.reqch = r :: rest) (h2 : s.bpd.pc = .ready) (h3 : s.ts.pc = .tsWait) : Effect s .tsDequeue { s with
        ts.req := r, reqch := rest, bte.n := 0, bte.idx := 0, ts.pc := .tsAddr
        bpd.rw := false, bpd.a := r.deviceAddress, bpd.pc := .wSb, ctl.start := true }
  | dequeueRead r rest c (h : s.reqch = r :: rest) (h2 : s.bpd.pc = .ready) (h3 : s.ts.pc = .tsWait) : Effect s .tsDequeue { s with
        ts.req := r, reqch := rest, bte.n := 0, bte.idx := 0, ts.pc := .tsAddr
        bpd.rw := true, bpd.a := r.deviceAddress, bpd.size := c, bpd.pc := .wSb, hid.rxClosed := false, ctl.start := true }
  | addrDone b (h : s.ts.pc = .tsAddr) : Effect s .tsAddrDone { s with bte := b, ts.pc := .tsData }
  | addrFault (h : s.ts.pc = .tsAddr) : Effect s .tsAddrFault (latchOutcome .error s)
  | dataDone (h : s.ts.pc = .tsData) : Effect s .tsDataDone (latchOutcome .success s)
  | dataFault (h : s.ts.pc = .tsData) : Effect s .tsDataFault (latchOutcome .error s)
  | finish (h : s.ts.pc = .tsFinish) : Effect s .tsFinish { s with
        bte.armed := false, ctl.stop := true, ctl.start := false, bpd.pc := .ready, sr := clearFlags s.sr
        hid.addrPending := false, ts.rsp := composeResponse s, ts.pc := .tsResp, draws := s.draws + 16 }
  | put (h : s.ts.pc = .tsResp) : Effect s .tsPut (putResponse s)
  | arm n b : Effect s (.bteArm n) { s with bte := b }
  | disarm : Effect s .bteDisarm (disarmEngine s)
  | wbyte k i : Effect s (.dataWbyte k) (sendByte i k s)
  | rbyte b i : Effect s (.dataRbyte b) (takeByte i b s)
  | start (h : s.ctl.start = true) : Effect s .envStart { emit .start s with ctl.start := false, sr.startSent := true, sr.master := true }
  | addrAck : Effect s .envAddrAck { emit (.addr s.dr .ack) s with sr.addrAcked := true, hid.addrPending := false }
  | addrNack : Effect s .envAddrNack (raiseFault .ackFailure { emit (.addr s.dr .nack) s with hid.addrPending := false })
  | stop : Effect s .envStop (completeStop s)
  | busError : Effect s .envBusError (raiseFault .busError s)
  | arbLost : Effect s .envArbLost (raiseFault .arbitrationLost s)

/-- What exec answers next is one of the effects. -/
theorem exec_effect (i : Instr) (s t : State) (h : exec i s = .next t) : Effect s i t := by
  have off : ∀ k r, offer k r s = accept k r s ∨ offer k r s = reject k r s ∨ offer k r s = s := by
    intro k r; rcases offer_cases k r s with ⟨_, _, h⟩ | ⟨_, _, h⟩ | h <;> simp [h]
  cases i with
  | reqWrite k a n p => simp [exec, execReqWrite] at h; subst h; rcases off k ⟨0,a,n,p⟩ with h | h | h <;> simp at h <;> rw [h] <;> constructor
  | reqRead k a n p => simp [exec, execReqRead] at h; subst h; rcases off k ⟨1,a,n,p⟩ with h | h | h <;> simp at h <;> rw [h] <;> constructor
  | rspSuccess k n b => simp [exec, execRspSuccess] at h; subst h; rcases receiveMessage_cases k ⟨.success, n, b⟩ s with ⟨r, _, h, he⟩ | he <;> rw [he] <;> constructor; exact h
  | rspError k n b => simp [exec, execRspError] at h; subst h; rcases receiveMessage_cases k ⟨.error, n, b⟩ s with ⟨r, _, h, he⟩ | he <;> rw [he] <;> constructor; exact h
  | cmdInit c =>
    rcases execCmdInit_cases h with rfl | rfl | ⟨h1, _, _, _, rfl⟩
    · exact .same _
    · exact .refuse _
    · exact .init c h1
  | cmdBeginWrite st =>
    cases st with
    | bw1 a =>
      simp [exec, execCmdBeginWrite] at h; subst h
      cases hb : beginWriteStart a s with
      | none => exact .refuse _
      | some t => obtain ⟨_, h2, rfl⟩ := beginWriteStart_some.1 hb; exact .bw1 a h2
    | _ => rcases stepWhen_next.1 h with ⟨h1, rfl⟩ | ⟨_, rfl⟩ <;> constructor; simp at h1; simp_all
  | cmdBeginRead st =>
    cases st with
    | br1 a n =>
      simp [exec, execCmdBeginRead] at h; subst h
      cases hb : beginReadStart a n s with
      | none => exact .refuse _
      | some t => obtain ⟨_, h2, c, _, rfl⟩ := beginReadStart_some.1 hb; exact .br1 a n c h2
    | _ => rcases stepWhen_next.1 h with ⟨h1, rfl⟩ | ⟨_, rfl⟩ <;> constructor; simp at h1; simp_all
  | cmdEnd =>
    simp [exec, execCmdEnd] at h; subst h
    cases hb : endTransaction s with
    | none => exact .refuse _
    | some t => obtain ⟨_, h2, rfl⟩ := endTransaction_some.1 hb; exact .endTransaction
  | waWrite a => rcases stepWhen_next.1 h with ⟨h1, rfl⟩ | ⟨_, rfl⟩ <;> constructor; simp at h1; simp_all
  | waRead a => rcases stepWhen_next.1 h with ⟨h1, rfl⟩ | ⟨_, rfl⟩ <;> constructor; simp at h1; simp_all
  | chEnq k r => rcases stepWhen_next.1 h with ⟨h1, rfl⟩ | ⟨_, rfl⟩ <;> constructor
  | chEnqReject k r => rcases stepWhen_next.1 h with ⟨h1, rfl⟩ | ⟨_, rfl⟩ <;> constructor
  | chRecv k => simp [exec, execChRecv] at h; subst h; rcases receive_cases k s with ⟨q, r, _, h, he⟩ | he <;> rw [he] <;> constructor; exact h
  | tsDequeue =>
    rcases execTsDequeue_cases h with rfl | ⟨r, rest, h1, h2, h3, ⟨h4, rfl⟩ | ⟨h4, rfl⟩⟩
    · exact .same _
    · exact .refuse _
    · rcases openRequest_cases r rest s with he | ⟨_, h5, _, he⟩ | ⟨_, h5, _, c, _, he⟩ <;> rw [he]
      · exact .refuse _
      · exact .dequeueWrite _ _ h1 h5 h2
      · exact .dequeueRead _ _ _ h1 h5 h2
  | tsAddrDone =>
    rcases stepWhen_next.1 h with ⟨h1, rfl⟩ | ⟨_, rfl⟩
    · rcases armRequest_cases s with he | ⟨_, _, _, c, _, he⟩ <;> rw [he]
      · exact .refuse _
      · simp at h1; exact .addrDone _ h1.1.1
    · exact .same _
  | tsFinish =>
    rcases stepWhen_next.1 h with ⟨h1, rfl⟩ | ⟨_, rfl⟩
    · rcases finishTransaction_cases s with he | ⟨_, _, he⟩ <;> rw [he]
      · exact .refuse _
      · simp at h1; exact .finish h1
    · exact .same _
  | bteArm n =>
    simp [exec, execBteArm] at h; subst h
    cases hb : armEngine n s with
    | none => exact .refuse _
    | some t => obtain ⟨_, _, h2, c, _, rfl⟩ := armEngine_some.1 hb; exact .arm _ _
  | bteDisarm => simp [exec, execBteDisarm] at h; subst h; exact .disarm
  | dataWbyte k => rcases execDataWbyte_cases h with rfl | ⟨i, _, _, _, _, _, rfl⟩ <;> constructor
  | dataRbyte b => rcases execDataRbyte_cases h with rfl | ⟨i, _, _, _, _, _, _, rfl⟩ <;> constructor
  | envStart => rcases stepWhen_next.1 h with ⟨h1, rfl⟩ | ⟨_, rfl⟩ <;> constructor; simp at h1; simp_all
  | envAddrAck | envAddrNack | envStop | envBusError | envArbLost => rcases stepWhen_next.1 h with ⟨h1, rfl⟩ | ⟨_, rfl⟩ <;> constructor
  | tsAddrFault | tsDataDone | tsDataFault | tsPut =>
    rcases stepWhen_next.1 h with ⟨h1, rfl⟩ | ⟨_, rfl⟩ <;> constructor; simp at h1; simp_all

/-- EV4's effect in one record. -/
theorem completeStop_eq (s : State) : completeStop s = { s with trace := if s.sr.master = true then s.trace ++ [.stop] else s.trace, sr.master := false, ctl.stop := false, hid.addrPending := false } := by
  unfold completeStop emit; cases h : s.sr.master <;> simp

end Sys2Proof.Machine
end

