-- ==== Sys2Proof/Laws/Memory.lean ====
section
/-! SUPPORT. The laws of the target's memory: read after write, and every write keeps the canonical form. -/

namespace Sys2Proof.Machine

theorem Memory.wfFrom_mono {lo lo' : Nat} {m : List Host.Cell} (h : lo' ≤ lo) (hm : Memory.wfFrom lo m = true) :
    Memory.wfFrom lo' m = true := by
  cases m with
  | nil => rfl
  | cons c m =>
    simp only [Memory.wfFrom, Bool.and_eq_true, decide_eq_true_eq] at hm ⊢
    exact ⟨⟨by omega, hm.1.2⟩, hm.2⟩

/-- An address below every listed one reads as unlisted. -/
theorem Memory.read_of_lt {lo a : Nat} {m : List Host.Cell} (h : a < lo) (hm : Memory.wfFrom lo m = true) :
    Memory.read m a = Memory.unlisted := by
  induction m generalizing lo with
  | nil => rfl
  | cons c m ih =>
    simp only [Memory.wfFrom, Bool.and_eq_true, decide_eq_true_eq] at hm
    simp only [Memory.read]
    rw [if_neg (by omega)]
    exact ih (by omega) hm.2

theorem Memory.write_wfFrom {lo a : Nat} {v : Byte} {m : List Host.Cell} (h : lo ≤ a) (hm : Memory.wfFrom lo m = true) :
    Memory.wfFrom lo (Memory.write m a v) = true := by
  induction m generalizing lo with
  | nil =>
    simp only [Memory.write]
    split <;> simp_all [Memory.wfFrom]
  | cons c m ih =>
    obtain ⟨b, w⟩ := c
    have hc := hm
    simp only [Memory.wfFrom, Bool.and_eq_true, decide_eq_true_eq, bne_iff_ne, ne_eq] at hc
    simp only [Memory.write]
    split
    · split
      · exact hm
      · simp only [Memory.wfFrom, Bool.and_eq_true, decide_eq_true_eq, bne_iff_ne, ne_eq]
        exact ⟨⟨h, ‹_›⟩, ⟨by omega, hc.1.2⟩, hc.2⟩
    · split
      · split
        · exact Memory.wfFrom_mono (by omega) hc.2
        · subst_vars
          simp only [Memory.wfFrom, Bool.and_eq_true, decide_eq_true_eq, bne_iff_ne, ne_eq]
          exact ⟨⟨h, ‹_›⟩, hc.2⟩
      · simp only [Memory.wfFrom, Bool.and_eq_true, decide_eq_true_eq, bne_iff_ne, ne_eq]
        exact ⟨hc.1, ih (by omega) hc.2⟩

/-- A write keeps the canonical form. -/
theorem Memory.write_wf {a : Nat} {v : Byte} {m : List Host.Cell} (hm : Memory.wf m = true) :
    Memory.wf (Memory.write m a v) = true :=
  Memory.write_wfFrom (Nat.zero_le a) hm

/-- The fixture keeps its memory canonical whatever the wire carries. -/
theorem Eeprom.onEvent_wf (e : Eeprom) (w : WireEvent) (h : Memory.wf e.mem = true) : Memory.wf (e.onEvent w).mem = true := by
  cases w with
  | start => exact h
  | stop => exact h
  | addr b k => cases k <;> exact h
  | rd b k => exact h
  | wr b k =>
    cases k with
    | nack => exact h
    | ack =>
      simp only [Eeprom.onEvent]
      split
      · exact h
      · exact Memory.write_wf h

theorem Memory.read_write_same {lo a : Nat} {v : Byte} {m : List Host.Cell} (hm : Memory.wfFrom lo m = true) :
    Memory.read (Memory.write m a v) a = v := by
  induction m generalizing lo with
  | nil =>
    simp only [Memory.write]
    split <;> simp_all [Memory.read]
  | cons c m ih =>
    obtain ⟨b, w⟩ := c
    have hc := hm
    simp only [Memory.wfFrom, Bool.and_eq_true, decide_eq_true_eq, bne_iff_ne, ne_eq] at hc
    simp only [Memory.write]
    split
    · split
      · rename_i h hv
        rw [hv]
        simp only [Memory.read]
        rw [if_neg (by omega)]
        exact Memory.read_of_lt (by omega) hc.2
      · simp [Memory.read]
    · split
      · split
        · rename_i h1 h2 hv
          rw [hv]
          exact Memory.read_of_lt (by omega) hc.2
        · simp [Memory.read]
      · simp only [Memory.read]
        rw [if_neg (by omega)]
        exact ih hc.2

theorem Memory.read_write_other {a a' : Nat} {v : Byte} {m : List Host.Cell} (h : a' ≠ a) (hm : Memory.wf m = true) :
    Memory.read (Memory.write m a v) a' = Memory.read m a' := by
  have key : ∀ lo, Memory.wfFrom lo m = true → Memory.read (Memory.write m a v) a' = Memory.read m a' := by
    intro lo hlo
    induction m generalizing lo with
    | nil =>
      simp only [Memory.write]
      split
      · rfl
      · simp [Memory.read, Ne.symm h]
    | cons c m ih =>
      obtain ⟨b, w⟩ := c
      have hc := hlo
      simp only [Memory.wfFrom, Bool.and_eq_true, decide_eq_true_eq, bne_iff_ne, ne_eq] at hc
      simp only [Memory.write]
      split
      · split
        · rfl
        · simp [Memory.read, Ne.symm h]
      · split
        · rename_i h2
          subst h2
          split
          · simp [Memory.read, Ne.symm h]
          · simp [Memory.read, Ne.symm h]
        · simp only [Memory.read]
          split
          · rfl
          · exact ih (Memory.wfFrom_mono (Nat.zero_le _) hc.2) _ hc.2
  exact key 0 hm

end Sys2Proof.Machine
end

