-- ==== Sys2Proof/Laws/PerInstr.lean ====
section
/-! SUPPORT. Families of statements about every instruction as syntax, one lemma per constructor. -/

namespace Sys2Proof.Laws

/-- The number of bytes of an instruction's format (30_encoding R90): REQ 19, RSP 18, CMD 3, WA 1, and none where no bits select it. -/
def formatLength : Instr → Nat
  | .reqWrite _ _ _ _ => 19
  | .reqRead _ _ _ _ => 19
  | .rspSuccess _ _ _ => 18
  | .rspError _ _ _ => 18
  | .cmdInit _ => 3
  | .cmdBeginWrite st => if st.isFirst then 3 else 0
  | .cmdBeginRead st => if st.isFirst then 3 else 0
  | .cmdEnd => 3
  | .waWrite _ => 1
  | .waRead _ => 1
  | .chEnq _ _ => 0
  | .chEnqReject _ _ => 0
  | .chRecv _ => 0
  | .tsDequeue => 0
  | .tsAddrDone => 0
  | .tsAddrFault => 0
  | .tsDataDone => 0
  | .tsDataFault => 0
  | .tsFinish => 0
  | .tsPut => 0
  | .bteArm _ => 0
  | .bteDisarm => 0
  | .dataWbyte _ => 0
  | .dataRbyte _ => 0
  | .envStart => 0
  | .envAddrAck => 0
  | .envAddrNack => 0
  | .envStop => 0
  | .envBusError => 0
  | .envArbLost => 0

/-- Every instruction is encoded in as many bytes as its format has (30_encoding R90, R105). -/
def EncodedLength.Statement (i : Instr) : Prop := (encodeBytes i).length = formatLength i

theorem EncodedLength.reqWrite (k : Nat) (a n : Byte) (p : Buf) : EncodedLength.Statement (.reqWrite k a n p) := by
  simp [EncodedLength.Statement, encodeBytes, formatLength]
theorem EncodedLength.reqRead (k : Nat) (a n : Byte) (p : Buf) : EncodedLength.Statement (.reqRead k a n p) := by
  simp [EncodedLength.Statement, encodeBytes, formatLength]
theorem EncodedLength.rspSuccess (k : Nat) (n : Count) (b : Buf) : EncodedLength.Statement (.rspSuccess k n b) := by
  simp [EncodedLength.Statement, encodeBytes, formatLength]
theorem EncodedLength.rspError (k : Nat) (n : Count) (b : Buf) : EncodedLength.Statement (.rspError k n b) := by
  simp [EncodedLength.Statement, encodeBytes, formatLength]
theorem EncodedLength.cmdInit (c : CfgRecord) : EncodedLength.Statement (.cmdInit c) := rfl
theorem EncodedLength.cmdBeginWrite (st : BeginWriteStep) : EncodedLength.Statement (.cmdBeginWrite st) := by cases st <;> rfl
theorem EncodedLength.cmdBeginRead (st : BeginReadStep) : EncodedLength.Statement (.cmdBeginRead st) := by cases st <;> rfl
theorem EncodedLength.cmdEnd : EncodedLength.Statement .cmdEnd := rfl
theorem EncodedLength.waWrite (a : BitVec 7) : EncodedLength.Statement (.waWrite a) := rfl
theorem EncodedLength.waRead (a : BitVec 7) : EncodedLength.Statement (.waRead a) := rfl
theorem EncodedLength.chEnq (k : Nat) (r : TransferRequest) : EncodedLength.Statement (.chEnq k r) := rfl
theorem EncodedLength.chEnqReject (k : Nat) (r : TransferRequest) : EncodedLength.Statement (.chEnqReject k r) := rfl
theorem EncodedLength.chRecv (k : Nat) : EncodedLength.Statement (.chRecv k) := rfl
theorem EncodedLength.tsDequeue : EncodedLength.Statement .tsDequeue := rfl
theorem EncodedLength.tsAddrDone : EncodedLength.Statement .tsAddrDone := rfl
theorem EncodedLength.tsAddrFault : EncodedLength.Statement .tsAddrFault := rfl
theorem EncodedLength.tsDataDone : EncodedLength.Statement .tsDataDone := rfl
theorem EncodedLength.tsDataFault : EncodedLength.Statement .tsDataFault := rfl
theorem EncodedLength.tsFinish : EncodedLength.Statement .tsFinish := rfl
theorem EncodedLength.tsPut : EncodedLength.Statement .tsPut := rfl
theorem EncodedLength.bteArm (n : Byte) : EncodedLength.Statement (.bteArm n) := rfl
theorem EncodedLength.bteDisarm : EncodedLength.Statement .bteDisarm := rfl
theorem EncodedLength.dataWbyte (k : Answer) : EncodedLength.Statement (.dataWbyte k) := rfl
theorem EncodedLength.dataRbyte (b : Byte) : EncodedLength.Statement (.dataRbyte b) := rfl
theorem EncodedLength.envStart : EncodedLength.Statement .envStart := rfl
theorem EncodedLength.envAddrAck : EncodedLength.Statement .envAddrAck := rfl
theorem EncodedLength.envAddrNack : EncodedLength.Statement .envAddrNack := rfl
theorem EncodedLength.envStop : EncodedLength.Statement .envStop := rfl
theorem EncodedLength.envBusError : EncodedLength.Statement .envBusError := rfl
theorem EncodedLength.envArbLost : EncodedLength.Statement .envArbLost := rfl

end Sys2Proof.Laws
end

