-- ==== Sys2Proof/Laws/Step.lean ====
section
/-! SUPPORT. Laws of the step and of runs: the next move is fetched, runs compose, and what holds at launch and is kept by every step holds
of every reachable state. -/

namespace Sys2Proof.Machine

/-- A step that no bits select is run as it stands. -/
theorem step_move {s : State} {i : Instr} {rest : List Stimulus} (hr : s.refused = false) (ha : s.agenda = move i :: rest) :
    step s = exec i { s with agenda := rest } := by
  simp [step, hr, fetch, ha, decode]

/-- With an empty agenda the block rests. -/
theorem step_rest {s : State} (hr : s.refused = false) (ha : s.agenda = []) : step s = .next s := by
  simp [step, hr, fetch, ha]

/-- The sticky mark ends the run. -/
theorem step_refused {s : State} (hr : s.refused = true) : step s = .refused .refusedMarkSet := by
  simp [step, hr]

/-- Runs compose. -/
theorem run_add {m n : Nat} {s t : State} (h : Sys2Proof.core.run m s = .next t) :
    Sys2Proof.core.run (m + n) s = Sys2Proof.core.run n t := by
  induction m generalizing s with
  | zero =>
    have : s = t := Host.Outcome.next.inj h
    simp [this]
  | succ m ih =>
    rw [Nat.succ_add]
    simp only [Host.Core.run] at h ⊢
    split at h
    · exact ih h
    · simp at h
    · simp at h

/-- One step and then the rest of a run. -/
theorem run_succ {n : Nat} {s t : State} (h : step s = .next t) : Sys2Proof.core.run (n + 1) s = Sys2Proof.core.run n t := by
  have h' : Sys2Proof.core.step s = .next t := h
  simp [Host.Core.run, h']

/-- A run keeps to reachable states. -/
theorem Reachable.run {n : Nat} {s t : State} (hs : Reachable s) (h : Sys2Proof.core.run n s = .next t) : Reachable t := by
  induction n generalizing s with
  | zero =>
    have : s = t := Host.Outcome.next.inj h
    exact this ▸ hs
  | succ n ih =>
    simp only [Host.Core.run] at h
    split at h
    · rename_i u hu
      exact ih (Reachable.step s u hs hu) h
    · simp at h
    · simp at h

/-- The induction, once: what holds at every launch and is kept by every step holds of every reachable state. -/
theorem Reachable.induct {P : State → Prop}
    (launch : ∀ p agenda, (∀ e ∈ agenda, Owned e = true) → P { State.reset with par := p, agenda := agenda })
    (keep : ∀ s t, P s → Sys2Proof.Machine.step s = .next t → P t) {s : State} (h : Reachable s) : P s := by
  induction h with
  | launch p agenda ho => exact launch p agenda ho
  | step s t _ hs ih => exact keep s t ih hs

end Sys2Proof.Machine
end

