-- ==== Sys2Proof/Tests/Slice0.lean ====
section
/-! SUPPORT. The model's own tests: the checks of WellFormed, decoding of words written out from the spec's tables, one step of each
instruction against the vectors of 95_test_vectors, and a witness for the hypotheses of every statement. -/

namespace Sys2Proof.Tests

open Sys2Proof.Machine

/-! ### Small states -/

/-- A buffer that begins with `l` and is zero after it. -/
def bufOf (l : List Byte) : Buf := Vector.ofFn fun i => l.getD i.val 0

/-- `S0` of 95_test_vectors: reset followed by INIT. -/
def s0 : State := { State.reset with cfg := .sample, bpd.inited := true, ctl.bteEn := true, ctl.last := true }

/-- `WR 50, [10 AA BB]` (95 V-MSG). -/
def wr : TransferRequest := ⟨0x00#8, 0x50#8, 3#8, bufOf [0x10#8, 0xAA#8, 0xBB#8]⟩

/-- `RD 50, 2` (95 V-MSG). -/
def rd : TransferRequest := ⟨0x01#8, 0x50#8, 2#8, .zero⟩

/-- A request that is not admitted: kind 2, length 17. -/
def bad : TransferRequest := ⟨0x02#8, 0x50#8, 17#8, .zero⟩

/-- A Success response of two bytes. -/
def rsp : TransferResponse := ⟨.success, 2, bufOf [0x41#8, 0x42#8]⟩

/-- The address phase of `wr`, the driver at `p`. -/
def atW (p : BpdPc) : State := { s0 with ts.pc := .tsAddr, ts.req := wr, bpd := ⟨p, true, false, 0x50#8, 0⟩ }

/-- The address phase of `rd`, the driver at `p`. -/
def atR (p : BpdPc) : State := { s0 with ts.pc := .tsAddr, ts.req := rd, bpd := ⟨p, true, true, 0x50#8, 2⟩ }

/-- The data phase of `wr` at byte `i`. -/
def dataW (i : Count) : State := { atW .dataW with ts.pc := .tsData, sr.master := true, bte := ⟨true, false, 3, i, wr.payload⟩ }

/-- The data phase of `rd` at byte `i`. -/
def dataR (i : Count) : State :=
  { atR .dataR with ts.pc := .tsData, sr.master := true, ctl.ack := true, bte := ⟨true, true, 2, i, .zero⟩ }

/-- The state after an instruction. -/
def after (i : Instr) (s : State) : State :=
  match exec i s with
  | .next t => t
  | .fault _ => s
  | .refused _ => s

/-! ### WellFormed: one ill-formed term for each check -/

theorem test_wf_req_length_zero : Instr.wellFormed (.reqWrite 0 0x50#8 0#8 .zero) = false := by decide
theorem test_wf_req_length_17 : Instr.wellFormed (.reqRead 0 0x50#8 17#8 .zero) = false := by decide
theorem test_wf_cfg_speed : Instr.wellFormed (.cmdInit ⟨1, .other 100000, 0, true, false⟩) = false := by decide
theorem test_wf_cfg_filters : Instr.wellFormed (.cmdInit ⟨1, .fastMode400kHz, 0, false, false⟩) = false ∧
    Instr.wellFormed (.cmdInit ⟨1, .fastMode400kHz, 0, true, true⟩) = false := by decide
theorem test_wf_read_size : Instr.wellFormed (.cmdBeginRead (.br1 0x50#8 0#8)) = false ∧
    Instr.wellFormed (.cmdBeginRead (.br1 0x50#8 17#8)) = false := by decide
theorem test_wf_arm_count : Instr.wellFormed (.bteArm 0#8) = false ∧ Instr.wellFormed (.bteArm 16#8) = true := by decide

/-! ### Decoding: words from 30 Tables 30-1 to 30-4 and 95 V-MSG, V-WA -/

/-- REQ = 00 50 03 10 AA BB 00 ... (V-MSG). -/
theorem test_decode_req_write : decode (.message (.request 0)
    ([0x00#8, 0x50#8, 0x03#8, 0x10#8, 0xAA#8, 0xBB#8] ++ List.replicate 13 0x00#8)) =
    .ok (.reqWrite 0 0x50#8 3#8 (bufOf [0x10#8, 0xAA#8, 0xBB#8])) := by decide
/-- REQ = 01 7F 10 00 ... (V-MSG). -/
theorem test_decode_req_read : decode (.message (.request 1) ([0x01#8, 0x7F#8, 0x10#8] ++ List.replicate 16 0x00#8)) =
    .ok (.reqRead 1 0x7F#8 16#8 .zero) := by decide
/-- RSP = 00 02 AA BB 00 ... (V-MSG). -/
theorem test_decode_rsp_success : decode (.message (.response 0)
    ([0x00#8, 0x02#8, 0xAA#8, 0xBB#8] ++ List.replicate 14 0x00#8)) = .ok (.rspSuccess 0 2 (bufOf [0xAA#8, 0xBB#8])) := by decide
/-- RSP = 01 02 11 22 00 ... (V-MSG). -/
theorem test_decode_rsp_error : decode (.message (.response 0)
    ([0x01#8, 0x02#8, 0x11#8, 0x22#8] ++ List.replicate 14 0x00#8)) = .ok (.rspError 0 2 (bufOf [0x11#8, 0x22#8])) := by decide
/-- CMD = 00 xx xx, 01 50 xx, 02 50 04, 03 xx xx (V-MSG). -/
theorem test_decode_cmd : decode (.command [0x00#8, 0xFF#8, 0xFF#8] .sample) = .ok (.cmdInit .sample) ∧
    decode (.command [0x01#8, 0x50#8, 0xFF#8] .sample) = .ok (.cmdBeginWrite (.bw1 0x50#8)) ∧
    decode (.command [0x02#8, 0x50#8, 0x04#8] .sample) = .ok (.cmdBeginRead (.br1 0x50#8 4#8)) ∧
    decode (.command [0x03#8, 0xFF#8, 0xFF#8] .sample) = .ok .cmdEnd := by decide
/-- WA = aaaaaaa0, aaaaaaa1 (R95; V-WA). -/
theorem test_decode_wa : decode (.message .wire [0b10100000#8]) = .ok (.waWrite 0b1010000#7) ∧
    decode (.message .wire [0b10100001#8]) = .ok (.waRead 0b1010000#7) ∧
    decode (.message .wire [0xFF#8]) = .ok (.waRead 0x7F#7) := by decide
/-- The rows no bits select stand for themselves (Table 30-5). -/
theorem test_decode_steps : ∀ i ∈ [Instr.chEnq 0 wr, .chEnqReject 0 wr, .chRecv 0, .tsDequeue, .tsAddrDone, .tsAddrFault, .tsDataDone,
    .tsDataFault, .tsFinish, .tsPut, .bteArm 3#8, .bteDisarm, .dataWbyte .ack, .dataRbyte 0x41#8, .envStart, .envAddrAck, .envAddrNack,
    .envStop, .envBusError, .envArbLost], decode (.step i) = .ok i := by
  intro i _
  rfl
/-- The refused words of V-MSG. -/
theorem test_decode_reserved :
    decode (.message (.request 0) ([0x02#8, 0x50#8, 0x01#8] ++ List.replicate 16 0x00#8)) = .error .reservedKind ∧
    decode (.message (.request 0) ([0x00#8, 0x50#8, 0x00#8] ++ List.replicate 16 0x00#8)) = .error .reservedRequestLength ∧
    decode (.message (.request 0) ([0x00#8, 0x50#8, 0x11#8] ++ List.replicate 16 0x00#8)) = .error .reservedRequestLength ∧
    decode (.command [0x04#8, 0x00#8, 0x00#8] .sample) = .error .reservedOp ∧
    decode (.command [0x02#8, 0x50#8, 0x00#8] .sample) = .error .reservedSize ∧
    decode (.command [0x02#8, 0x50#8, 0x11#8] .sample) = .error .reservedSize := by decide
/-- RSP values the block never produces, and wrong lengths (R102, R105). -/
theorem test_decode_reserved_rsp :
    decode (.message (.response 0) ([0x02#8, 0x00#8] ++ List.replicate 16 0x00#8)) = .error .reservedStatus ∧
    decode (.message (.response 0) ([0x00#8, 0x11#8] ++ List.replicate 16 0x00#8)) = .error .reservedResponseLength ∧
    decode (.message .wire []) = .error .wrongLength ∧
    decode (.command [0x00#8, 0x00#8, 0x00#8] ⟨1, .other 1, 0, true, false⟩) = .error .cfgNotAdmitted := by decide
/-- Table words: a CMD word of 24 bits, a WA word of 8 bits, and no word for a row without bits. -/
theorem test_table_words : decodeTableWord 24 0x045002 = some (.cmdBeginRead (.br1 0x50#8 4#8)) ∧
    decodeTableWord 8 0xA1 = some (.waRead 0x50#7) ∧ decodeTableWord 0 0 = none := by decide

/-! ### One step of each instruction (95 section 2) -/

/-- V-CH. -/
theorem test_req_write_arrives : (after (.reqWrite 0 0x50#8 3#8 wr.payload) s0).reqch = [wr] := by decide
theorem test_req_read_full : (after (.reqRead 0 0x50#8 2#8 .zero) { s0 with reqch := [wr] }).reqch = [wr] := by decide
theorem test_rsp_success_taken : (after (.rspSuccess 0 2 rsp.buffer) { s0 with rspch := [rsp] }).rspch = [] := by decide
theorem test_rsp_error_not_front : (after (.rspError 0 2 rsp.buffer) { s0 with rspch := [rsp] }).rspch = [rsp] := by decide
/-- R121's example, and the second INIT of 95 section 4. -/
theorem test_init : (after (.cmdInit .sample) .reset).ctl = ⟨false, false, false, true, true⟩ ∧
    (after (.cmdInit .sample) .reset).cfg.busClockHz = 42000000 := by decide
theorem test_init_twice : (after (.cmdInit .sample) s0).refused = true := by decide
/-- V-BPD, BW3: `DR = A0`. -/
theorem test_bw3 : (after (.cmdBeginWrite .bw3) (atW .sendAddr)).dr = 0xA0#8 ∧
    (after (.cmdBeginWrite .bw3) (atW .sendAddr)).bpd.pc = .wAmW := by decide
/-- V-BPD: in W_AM_W with `addr_acked = 1` and `master = 0`, BW4 is disabled. -/
theorem test_bw4_not_master : (after (.cmdBeginWrite .bw4) { atW .wAmW with sr.addrAcked := true }).bpd.pc = .wAmW := by decide
/-- V-BPD, BR3: `DR = A1`; V-ACK, BR5: size 2 gives `ctl.ack = 1`. -/
theorem test_br3 : (after (.cmdBeginRead .br3) (atR .sendAddr)).dr = 0xA1#8 := by decide
theorem test_br5 : (after (.cmdBeginRead .br5) (atR .cfgAck)).ctl.ack = true ∧
    (after (.cmdBeginRead .br5) { atR .cfgAck with bpd.size := 1, ctl.ack := true }).ctl.ack = false := by decide
/-- V-BPD: `endTransaction` in any state but READY. -/
theorem test_end : (after .cmdEnd (atW .dataW)).ctl.stop = true ∧ (after .cmdEnd (atW .dataW)).bpd.pc = .ready ∧
    (after .cmdEnd s0).refused = true := by decide
/-- V-WA: operand D0 writes A0, operand FF reads FF. -/
theorem test_wa_write : (after (.waWrite 0x50#7) { atW .sendAddr with bpd.a := 0xD0#8 }).dr = 0xA0#8 := by decide
theorem test_wa_read : (after (.waRead 0x7F#7) { atR .sendAddr with bpd.a := 0xFF#8 }).dr = 0xFF#8 := by decide
/-- V-CH. -/
theorem test_enq : (after (.chEnq 0 wr) s0).reqch = [wr] ∧ (after (.chEnq 0 rd) { s0 with reqch := [wr] }).reqch = [wr] := by decide
theorem test_enq_reject : (after (.chEnqReject 0 rd) { s0 with reqch := [wr] }).told = [.rejected 0 rd] := by decide
theorem test_recv : (after (.chRecv 0) { s0 with rspch := [rsp] }).told = [.received 0 rsp] := by decide
/-- R177's example, with a Read of 2; and the refusals of 95 section 4. -/
theorem test_dequeue : (after .tsDequeue { s0 with reqch := [rd] }).bpd = ⟨.wSb, true, true, 0x50#8, 2⟩ ∧
    (after .tsDequeue { s0 with reqch := [rd] }).ctl.start = true := by decide
theorem test_dequeue_bad : (after .tsDequeue { s0 with reqch := [bad] }).refused = true ∧
    (after .tsDequeue { State.reset with reqch := [wr] }).reqch = [wr] := by decide
/-- V-DP, first row. -/
theorem test_addr_done : (after .tsAddrDone (atW .dataW)).bte = ⟨true, false, 3, 0, bufOf [0x10#8, 0xAA#8, 0xBB#8]⟩ := by decide
theorem test_addr_done_fault : (after .tsAddrDone { atW .dataW with sr.busErr := true }).ts.pc = .tsAddr := by decide
theorem test_addr_fault : (after .tsAddrFault { atW .wAmW with sr.ackFail := true }).ts.status = .error := by decide
theorem test_addr_fault_exit_false :
    (after .tsAddrFault { atW .wAmW with sr.ackFail := true, par.faultExit := false }).ts.pc = .tsAddr := by decide
theorem test_data_done : (after .tsDataDone { dataW 3 with ts.status := .error }).ts.status = .success ∧
    (after .tsDataDone (dataW 2)).ts.pc = .tsData := by decide
theorem test_data_fault : (after .tsDataFault { dataW 3 with sr.ackFail := true }).ts.status = .error := by decide
/-- R182's example: 3 bytes, `ctl.stop = 1`, READY, disarmed; `master` stays. -/
theorem test_finish : (after .tsFinish { dataW 3 with ts.pc := .tsFinish, sr.ackFail := true }).ts.rsp.length = 3 ∧
    (after .tsFinish { dataW 3 with ts.pc := .tsFinish, sr.ackFail := true }).sr = ⟨false, false, true, false, false, false⟩ := by decide
/-- V-CH. -/
theorem test_put : (after .tsPut { s0 with ts.pc := .tsResp, ts.rsp := rsp }).rspch = [rsp] ∧
    (after .tsPut { s0 with ts.pc := .tsResp, rspch := [rsp] }).ts.pc = .tsResp := by decide
/-- V-DP. -/
theorem test_arm : (after (.bteArm 3#8) (atW .dataW)).bte.armed = true ∧ (after (.bteArm 17#8) (atW .dataW)).refused = true := by decide
theorem test_disarm : (after .bteDisarm (dataW 3)).bte = { (dataW 3).bte with armed := false } := by decide
theorem test_wbyte_ack : (after (.dataWbyte .ack) (dataW 0)).trace = [.wr 0x10#8 .ack] ∧
    (after (.dataWbyte .ack) (dataW 0)).bte.idx = 1 := by decide
theorem test_wbyte_nack : (after (.dataWbyte .nack) (dataW 1)).dr = 0xAA#8 ∧ (after (.dataWbyte .nack) (dataW 1)).bte.idx = 1 ∧
    (after (.dataWbyte .nack) (dataW 1)).sr.ackFail = true := by decide
theorem test_rbyte_first : (after (.dataRbyte 0x41#8) (dataR 0)).trace = [.rd 0x41#8 .ack] ∧
    (after (.dataRbyte 0x41#8) (dataR 0)).bte.buf[0] = 0x41#8 := by decide
theorem test_rbyte_last : (after (.dataRbyte 0x42#8) (dataR 1)).trace = [.rd 0x42#8 .nack] ∧
    (after (.dataRbyte 0x42#8) (dataR 1)).hid.rxClosed = true := by decide
/-- V-ENV. -/
theorem test_env_start : (after .envStart { atW .wSb with ctl.start := true }).sr = ⟨true, false, true, false, false, false⟩ ∧
    (after .envStart { atW .wSb with ctl.start := true, ctl.stop := true }).trace = [] := by decide
theorem test_env_addr_ack : (after .envAddrAck { atW .wAmW with dr := 0xA0#8, hid.addrPending := true, sr.master := true }).trace =
    [.addr 0xA0#8 .ack] := by decide
theorem test_env_addr_nack :
    (after .envAddrNack { atW .wAmW with dr := 0xA0#8, hid.addrPending := true, sr.master := true }).sr.ackFail = true := by decide
theorem test_env_stop : (after .envStop { s0 with ctl.stop := true, sr.master := true }).trace = [.stop] ∧
    (after .envStop { s0 with ctl.stop := true }).trace = [] := by decide
theorem test_env_bus_error : (after .envBusError (dataW 2)).sr.busErr = true ∧
    (after .envBusError { dataW 2 with ctl.stop := true }).sr.busErr = false := by decide
theorem test_env_arb_lost : (after .envArbLost (dataR 1)).sr.arbLost = true ∧ (after .envArbLost (dataR 1)).sr.master = false := by decide
/-- A REQ with a reserved kind goes into the channel, where TS1 meets it (30 R101). -/
theorem test_reserved_request_waits :
    (match step { s0 with agenda := [.message (.request 0) ([0x02#8, 0x50#8, 0x01#8] ++ List.replicate 16 0x00#8)] } with
      | .next t => t.reqch.length
      | .fault _ => 9
      | .refused _ => 9) = 1 := by decide
/-- F-3 of 95 section 5: the write pointer wraps inside the page; F-4: the read pointer wraps at 512. -/
theorem test_eeprom_pointer : Eeprom.nextInPage 0x01F#9 = 0x010#9 ∧
    (Eeprom.onEvent ⟨0x50#7, [], 0x1FF#9, false⟩ (.rd 0 .ack)).ptr = 0 := by decide
theorem test_reset_memory_form : Memory.wf [] = true ∧ Memory.read (Memory.write [] 5 0x12#8) 5 = 0x12#8 ∧
    Memory.write [(5, 0x12#8)] 5 0 = [] := by decide

/-! ### Witnesses: for each clause of each statement, states and operands that meet its hypotheses together -/

theorem witness_InitStoresConfiguration :
    (CfgRecord.sample.busSpeed = .fastMode400kHz ∧ CfgRecord.sample.analogFilter = true ∧ CfgRecord.sample.digitalFilter = false ∧
      State.reset.bpd.inited = false ∧ State.reset.bpd.pc = .ready ∧ State.reset.ts.pc = .tsWait) ∧
    (s0.bpd.inited = true) ∧ (BusSpeed.other 100000 ≠ .fastMode400kHz) := by decide

theorem witness_BeginWriteSteps :
    (s0.bpd.inited = true ∧ s0.bpd.pc = .ready) ∧
    ((atW .wSb).bpd.pc = .wSb ∧ (atW .wSb).bpd.rw = false ∧
      ({ atW .wSb with sr.startSent := true } : State).sr.startSent = true ∧ GuardG { atW .wSb with sr.startSent := true }) ∧
    ((atW .sendAddr).bpd.pc = .sendAddr ∧ (atW .sendAddr).bpd.rw = false ∧ GuardG (atW .sendAddr)) ∧
    (∃ s : State, s.bpd.pc = .wAmW ∧ s.sr.addrAcked = true ∧ s.sr.master = true ∧ GuardG s) := by
  simp only [GuardG, NoFault]
  exact ⟨by decide, by decide, by decide, { atW .wAmW with sr.addrAcked := true, sr.master := true }, by decide⟩

theorem witness_BeginReadSteps :
    (s0.bpd.inited = true ∧ s0.bpd.pc = .ready ∧ 1 ≤ (16#8).toNat ∧ (16 : Count).val = (16#8).toNat) ∧
    ((0#8).toNat = 0 ∧ 16 < (17#8).toNat) ∧
    (∃ s : State, s.bpd.pc = .wSb ∧ s.bpd.rw = true ∧ s.sr.startSent = true ∧ GuardG s) ∧
    (∃ s : State, s.bpd.pc = .sendAddr ∧ s.bpd.rw = true ∧ GuardG s) ∧
    (∃ s : State, s.bpd.pc = .wAddrR ∧ s.sr.addrAcked = true ∧ GuardG s) ∧
    (∃ s : State, s.bpd.pc = .cfgAck ∧ GuardG s) ∧
    (∃ s : State, s.bpd.pc = .wMslR ∧ s.sr.master = true ∧ GuardG s) := by
  simp only [GuardG, NoFault]
  exact ⟨by decide, by decide, ⟨{ atR .wSb with sr.startSent := true }, by decide⟩, ⟨atR .sendAddr, by decide⟩,
    ⟨{ atR .wAddrR with sr.addrAcked := true }, by decide⟩, ⟨atR .cfgAck, by decide⟩, ⟨{ atR .wMslR with sr.master := true }, by decide⟩⟩


theorem witness_WireAddressRows :
    ((atW .sendAddr).bpd.pc = .sendAddr ∧ (atW .sendAddr).bpd.rw = false ∧ GuardG (atW .sendAddr) ∧
      (atW .sendAddr).bpd.a.extractLsb' 0 7 = 0x50#7) ∧
    ((atR .sendAddr).bpd.pc = .sendAddr ∧ (atR .sendAddr).bpd.rw = true ∧ GuardG (atR .sendAddr) ∧
      (atR .sendAddr).bpd.a.extractLsb' 0 7 = 0x50#7) ∧ s0.bpd.a.extractLsb' 0 7 ≠ 0x50#7 := by
  simp only [GuardG, NoFault]
  decide

/-- At reset no BPD step is enabled; an INIT that finds TS busy waits. -/
theorem witness_DriverWaits :
    ¬GuardG State.reset ∧ (State.reset.bpd.pc ≠ .wSb ∧ State.reset.bpd.pc ≠ .sendAddr ∧ State.reset.bpd.pc ≠ .wAmW) ∧
    (∃ s : State, s.bpd.inited = false ∧ ¬(s.bpd.pc = .ready ∧ s.ts.pc = .tsWait)) := by
  simp only [GuardG, NoFault]
  exact ⟨by decide, by decide, { State.reset with ts.pc := .tsAddr }, by decide⟩

theorem witness_CommandRefusals :
    (4 ≤ (4#8).toNat ∧ ∃ s : State, s.refused = false ∧ s.agenda = [.command [4#8, 0, 0] .sample]) ∧
    s0.bpd.inited = true ∧ State.reset.bpd.inited = false ∧ (atW .wSb).bpd.pc ≠ .ready ∧ 16 < (17#8).toNat ∧ s0.bpd.pc = .ready :=
  ⟨⟨by decide, { s0 with agenda := [.command [4#8, 0, 0] .sample] }, rfl, rfl⟩, by decide⟩

theorem witness_EngineArmedDisarmed :
    (s0.ctl.bteEn = true ∧ s0.bte.armed = false ∧ (atW .dataW).bpd.pc = .dataW ∧ 1 ≤ (1#8).toNat ∧ (1 : Count).val = (1#8).toNat ∧
      (atW .dataW).ctl.bteEn = true ∧ (atW .dataW).bte.armed = false) ∧
    ((atR .dataR).bpd.pc = .dataR ∧ (atR .dataR).ctl.bteEn = true ∧ (atR .dataR).bte.armed = false ∧ (16 : Count).val = (16#8).toNat) ∧
    State.reset.ctl.bteEn = false ∧ (dataW 0).bte.armed = true ∧ ((atW .wAmW).bpd.pc ≠ .dataW ∧ (atW .wAmW).bpd.pc ≠ .dataR) := by decide

theorem witness_WrittenByte_step :
    (dataW 0).bte.armed = true ∧ (dataW 0).bte.dir = false ∧ (dataW 0).bpd.pc = .dataW ∧ (dataW 0).ts.pc = .tsData ∧
    (0 : Fin 16).val = (dataW 0).bte.idx.val ∧ (dataW 0).bte.idx.val < (dataW 0).bte.n.val ∧ (dataW 0).sr.master = true ∧
    (dataW 0).sr.addrAcked = false ∧ NoFault (dataW 0) := by
  simp only [NoFault]
  decide

/-- Byte 0 of 2 meets the ACK clause, byte 1 of 2 the NACK clause. -/
theorem witness_ReadByte_step :
    (∀ i : Count, i.val < 2 → (dataR i).bte.armed = true ∧ (dataR i).bte.dir = true ∧ (dataR i).bpd.pc = .dataR ∧
      (dataR i).ts.pc = .tsData ∧ (dataR i).bte.idx.val < (dataR i).bte.n.val ∧ (dataR i).sr.master = true ∧
      (dataR i).sr.addrAcked = false ∧ NoFault (dataR i) ∧ (dataR i).hid.rxClosed = false) ∧
    ((dataR 0).ctl.ack = true ∧ ¬((dataR 0).ctl.last = true ∧ 0 + 1 = (dataR 0).bte.n.val)) ∧
    ((dataR 1).ctl.last = true ∧ 1 + 1 = (dataR 1).bte.n.val) := by
  simp only [NoFault]
  decide

theorem witness_ChannelOperations :
    (0 < s0.par.nProducers ∧ s0.reqch.length < s0.par.reqCap) ∧ (∃ s : State, 0 < s.par.nProducers ∧ s.rspch = [rsp]) :=
  ⟨by decide, { s0 with rspch := [rsp] }, by decide, rfl⟩

theorem witness_EnqueueRejected : ∃ s : State, 0 < s.par.nProducers ∧ s.reqch.length = s.par.reqCap :=
  ⟨{ s0 with reqch := [wr] }, by decide⟩

theorem witness_RequestMessagesOffered :
    (0 < s0.par.nProducers ∧ s0.reqch.length < s0.par.reqCap) ∧
    ∃ s : State, 0 < s.par.nProducers ∧ s.reqch.length = s.par.reqCap :=
  ⟨by decide, { s0 with reqch := [wr] }, by decide⟩

theorem witness_ResponseMessagesTaken :
    (∃ s : State, 0 < s.par.nProducers ∧ s.rspch = [⟨.success, 2, .zero⟩]) ∧
    (∃ s : State, 0 < s.par.nProducers ∧ s.rspch = [⟨.error, 0, .zero⟩]) ∧
    s0.rspch.head? ≠ some ⟨.success, 2, .zero⟩ ∧ s0.rspch.head? ≠ some ⟨.error, 2, .zero⟩ :=
  ⟨⟨{ s0 with rspch := [⟨.success, 2, .zero⟩] }, by decide, rfl⟩, ⟨{ s0 with rspch := [⟨.error, 0, .zero⟩] }, by decide, rfl⟩,
    by decide⟩

theorem witness_RequestDequeued_step :
    (∃ s : State, s.ts.pc = .tsWait ∧ s.reqch = [wr] ∧ s.bpd.inited = true ∧ wr.kind = 0x00#8 ∧ 1 ≤ wr.length.toNat ∧
      wr.length.toNat ≤ 16 ∧ s.bpd.pc = .ready) ∧
    (∃ s : State, s.ts.pc = .tsWait ∧ s.reqch = [rd] ∧ s.bpd.inited = true ∧ rd.kind = 0x01#8 ∧ 1 ≤ rd.length.toNat ∧
      (2 : Count).val = rd.length.toNat ∧ s.bpd.pc = .ready) ∧
    (∃ s : State, s.ts.pc = .tsWait ∧ s.reqch = [bad] ∧ s.bpd.inited = true ∧ 2 ≤ bad.kind.toNat ∧ 16 < bad.length.toNat) :=
  ⟨⟨{ s0 with reqch := [wr] }, by decide⟩, ⟨{ s0 with reqch := [rd] }, by decide⟩, ⟨{ s0 with reqch := [bad] }, by decide⟩⟩

theorem witness_AddressPhaseDone :
    ((atW .dataW).ts.pc = .tsAddr ∧ NoFault (atW .dataW) ∧ (atW .dataW).ctl.bteEn = true ∧ (atW .dataW).bte.armed = false ∧
      1 ≤ (atW .dataW).ts.req.length.toNat ∧ (3 : Count).val = (atW .dataW).ts.req.length.toNat ∧ (atW .dataW).bpd.pc = .dataW) ∧
    ((atR .dataR).ts.pc = .tsAddr ∧ NoFault (atR .dataR) ∧ (atR .dataR).ctl.bteEn = true ∧ (atR .dataR).bte.armed = false ∧
      1 ≤ (atR .dataR).ts.req.length.toNat ∧ (2 : Count).val = (atR .dataR).ts.req.length.toNat ∧ (atR .dataR).bpd.pc = .dataR) := by
  simp only [NoFault]
  decide

theorem witness_OutcomeLatched :
    (∃ s : State, s.ts.pc = .tsAddr ∧ ¬NoFault s ∧ s.par.faultExit = true) ∧
    (∃ s : State, s.ts.pc = .tsAddr ∧ ¬NoFault s ∧ s.par.faultExit = false ∧ s.bpd.pc = .dataW) ∧
    ((dataW 3).ts.pc = .tsData ∧ (dataW 3).bte.idx = (dataW 3).bte.n ∧ NoFault (dataW 3)) ∧
    (∃ s : State, s.ts.pc = .tsData ∧ ¬NoFault s) := by
  simp only [NoFault]
  exact ⟨⟨{ atW .wAmW with sr.ackFail := true }, by decide⟩,
    ⟨{ atW .dataW with sr.busErr := true, par.faultExit := false }, by decide⟩, by decide,
    ⟨{ dataW 1 with sr.arbLost := true }, by decide⟩⟩

theorem witness_TransactionFinished :
    ∃ s : State, s.ts.pc = .tsFinish ∧ s.bpd.inited = true ∧ s.bpd.pc ≠ .ready ∧ s.ts.req.kind = 0x01#8 ∧
      (0 : Fin 16).val < s.bte.idx.val :=
  ⟨{ dataR 2 with ts.pc := .tsFinish }, by decide⟩

theorem witness_UnusedBufferBytesFree :
    ∃ s t : State, s.ts.pc = .tsFinish ∧ s.bpd.inited = true ∧ s.bpd.pc ≠ .ready ∧ exec .tsFinish s = .next t ∧
      s.bte.idx.val ≤ (2 : Fin 16).val :=
  ⟨{ dataR 2 with ts.pc := .tsFinish }, _, by decide, by decide, by decide, rfl, by decide⟩

theorem witness_ResponsePut : ∃ s : State, s.ts.pc = .tsResp ∧ s.rspch.length < s.par.rspCap :=
  ⟨{ s0 with ts.pc := .tsResp }, by decide⟩

/-- The launch premises of the reachable witnesses. -/
theorem reachable_of_run {agenda : List Stimulus} {n : Nat} {t : State} (h : ∀ e ∈ agenda, Owned e = true)
    (hr : Sys2Proof.core.run n { State.reset with par := .launch, agenda := agenda } = .next t) : Reachable t :=
  Reachable.run (Reachable.launch .launch agenda h) hr

/-- INIT, `WR 50, [10 AA BB]` and the moves of its address phase. -/
def writeRun : List Stimulus :=
  [move (.cmdInit .sample), move (.chEnq 0 wr), move .tsDequeue, move .envStart, move (.cmdBeginWrite .bw2), move (.cmdBeginWrite .bw3),
    move .envAddrAck, move (.cmdBeginWrite .bw4), move .tsAddrDone]

/-- The same with an address that is not acknowledged. -/
def nackRun : List Stimulus :=
  [move (.cmdInit .sample), move (.chEnq 0 wr), move .tsDequeue, move .envStart, move (.cmdBeginWrite .bw2), move (.cmdBeginWrite .bw3),
    move .envAddrNack, move .tsAddrFault, move .tsFinish]

/-- INIT, `RD 50, 2` and the moves of its address phase. -/
def readRun : List Stimulus :=
  [move (.cmdInit .sample), move (.chEnq 0 rd), move .tsDequeue, move .envStart, move (.cmdBeginRead .br2), move (.cmdBeginRead .br3),
    move .envAddrAck, move (.cmdBeginRead .br4), move (.cmdBeginRead .br5), move (.cmdBeginRead .br6)]

theorem writeRun_owned : ∀ e ∈ writeRun, Owned e = true := by decide
theorem nackRun_owned : ∀ e ∈ nackRun, Owned e = true := by decide
theorem readRun_owned : ∀ e ∈ readRun, Owned e = true := by decide

theorem witness_EngineArmedDisarmed_from_TS2 :
    ∃ s t : State, Reachable s ∧ s.refused = false ∧ exec .tsAddrDone s = .next t ∧ t.ts.pc = .tsData :=
  ⟨_, _, reachable_of_run (n := 8) writeRun_owned rfl, rfl, rfl, rfl⟩

theorem witness_EndRequestsStop :
    ((atW .wSb).bpd.inited = true ∧ (atW .wSb).bpd.pc ≠ .ready) ∧ s0.bpd.pc = .ready ∧
    (∃ s : State, Reachable s ∧ s.refused = false ∧ s.ts.pc = .tsFinish) :=
  ⟨by decide, by decide, ⟨_, reachable_of_run (n := 8) nackRun_owned rfl, rfl, rfl⟩⟩

theorem witness_WrittenByte_reachable : ∃ s : State, Reachable s ∧ s.refused = false ∧ s.bpd.pc = .dataW :=
  ⟨_, reachable_of_run (n := 8) writeRun_owned rfl, rfl, rfl⟩

theorem witness_ReadByte_reachable : ∃ s : State, Reachable s ∧ s.refused = false ∧ s.bpd.pc = .dataR :=
  ⟨_, reachable_of_run (n := 10) readRun_owned rfl, rfl, rfl⟩

theorem witness_RequestDequeued_reachable : ∃ s : State, Reachable s ∧ s.refused = false ∧ s.ts.pc = .tsWait ∧ s.reqch = [wr] :=
  ⟨_, reachable_of_run (n := 2) writeRun_owned rfl, rfl, rfl, rfl⟩

theorem witness_StartSent :
    (∃ s : State, s.ctl.start = true ∧ s.ctl.stop = false ∧ NoFault s) ∧
    (∃ s : State, Reachable s ∧ s.refused = false ∧ s.ctl.start = true ∧ s.ctl.stop = false ∧ NoFault s) := by
  refine ⟨⟨{ atW .wSb with ctl.start := true }, ?_⟩,
    ⟨_, reachable_of_run (n := 3) writeRun_owned rfl, rfl, rfl, rfl, rfl, rfl, rfl⟩⟩
  simp only [NoFault]
  decide

theorem witness_AddressAnswered :
    (∃ s : State, s.hid.addrPending = true ∧ s.sr.master = true ∧ s.ctl.stop = false ∧ NoFault s) ∧
    (∃ s : State, Reachable s ∧ s.refused = false ∧ s.hid.addrPending = true) := by
  refine ⟨⟨{ atW .wAmW with hid.addrPending := true, sr.master := true }, ?_⟩,
    ⟨_, reachable_of_run (n := 6) writeRun_owned rfl, rfl, rfl⟩⟩
  simp only [NoFault]
  decide

theorem witness_StopCompleted :
    (∃ s : State, s.ctl.stop = true ∧ s.sr.master = true) ∧ (∃ s : State, s.ctl.stop = true ∧ s.sr.master = false) :=
  ⟨⟨{ s0 with ctl.stop := true, sr.master := true }, by decide⟩, ⟨{ s0 with ctl.stop := true }, by decide⟩⟩

theorem witness_BusFaultsRaised :
    (∃ s : State, s.ctl.start = true ∧ s.sr.master = false ∧ s.ctl.stop = false) ∧
    (∃ s : State, s.ctl.start = false ∧ s.sr.master = true ∧ s.ctl.stop = false) :=
  ⟨⟨{ atW .wSb with ctl.start := true }, by decide⟩, ⟨dataW 1, by decide⟩⟩

/-- At reset every step of TS, the BTE and ENV is disabled, and PR2, PR3; PR1 is disabled where the channel is full. -/
theorem witness_OtherAgentsWait :
    (State.reset.reqch = [] ∧ State.reset.ts.pc ≠ .tsAddr ∧ State.reset.ts.pc ≠ .tsData ∧ State.reset.ts.pc ≠ .tsFinish ∧
      State.reset.ts.pc ≠ .tsResp ∧ State.reset.bte.armed = false ∧ State.reset.ctl.start = false ∧ State.reset.hid.addrPending = false ∧
      State.reset.ctl.stop = false ∧ State.reset.sr.master = false ∧ State.reset.reqch.length ≠ State.reset.par.reqCap ∧
      State.reset.rspch = []) ∧
    ∃ s : State, ¬(0 < s.par.nProducers ∧ s.reqch.length < s.par.reqCap) :=
  ⟨by decide, { s0 with reqch := [wr] }, by decide⟩

theorem witness_StepRunsDecodedMove :
    (∃ s : State, s.refused = false ∧ s.agenda = [move .tsDequeue] ∧ decode (move .tsDequeue) = .ok .tsDequeue) ∧
    (∃ s : State, s.refused = false ∧ s.agenda = [.command [9#8] .sample] ∧ decode (.command [9#8] .sample) = .error .wrongLength) ∧
    (s0.refused = false ∧ s0.agenda = []) :=
  ⟨⟨{ s0 with agenda := [move .tsDequeue] }, rfl, rfl, rfl⟩, ⟨{ s0 with agenda := [.command [9#8] .sample] }, rfl, rfl, rfl⟩, rfl, rfl⟩

/-- The REQ clauses: the reserved message `bad`, with room, with none, from no producer, over the capacity; and a message of 18 bytes. -/
theorem witness_StepRunsDecodedMove_request :
    (∀ i, decode (.message (.request 0) (bad.kind :: bad.deviceAddress :: bad.length :: bad.payload.toList)) ≠ .ok i) ∧
    (0 < s0.par.nProducers ∧ s0.reqch.length < s0.par.reqCap) ∧
    ({ s0 with reqch := [wr] } : State).reqch.length = s0.par.reqCap ∧ s0.par.nProducers ≤ 1 ∧
    s0.par.reqCap < ({ s0 with reqch := [wr, rd] } : State).reqch.length ∧ (List.replicate 18 (0#8 : Byte)).length ≠ 19 := by
  refine ⟨fun i h => ?_, by decide⟩
  have e : decode (.message (.request 0) (bad.kind :: bad.deviceAddress :: bad.length :: bad.payload.toList)) = .error .reservedKind := by
    decide
  rw [e] at h
  cases h

theorem witness_DecodeEncode : Instr.wellFormed (.reqWrite 3 0xFF#8 16#8 wr.payload) = true ∧
    Instr.wellFormed (.cmdBeginRead (.br1 0x50#8 1#8)) = true := by decide

/-- Each clause: a REQ, an RSP, a WA and a CMD of each kind that decode. -/
theorem witness_EncodeDecode :
    decode (.message (.request 0) (0x01#8 :: 0x50#8 :: 2#8 :: rd.payload.toList)) = .ok (.reqRead 0 0x50#8 2#8 rd.payload) ∧
    decode (.message (.response 0) (0x00#8 :: 2#8 :: rsp.buffer.toList)) = .ok (.rspSuccess 0 2 rsp.buffer) ∧
    decode (.message .wire [0x01#8]) = .ok (.waRead 0x00#7) ∧
    decode (.command [0x01#8, 0x50#8, 0x77#8] .sample) = .ok (.cmdBeginWrite (.bw1 0x50#8)) ∧
    decode (.command [0x02#8, 0x50#8, 0x10#8] .sample) = .ok (.cmdBeginRead (.br1 0x50#8 16#8)) ∧
    decode (.command [0x00#8, 0x50#8, 0x77#8] .sample) = .ok (.cmdInit .sample) := by decide

theorem witness_RefusedSticks :
    (exec .tsDequeue { s0 with refused := true } = .next { s0 with refused := true }) ∧ ∃ s : State, s.refused = true :=
  ⟨rfl, { s0 with refused := true }, rfl⟩

/-- Each edge of `bpd.pc` and of `ts.pc` is taken somewhere. -/
theorem witness_SequencerEdges :
    (after .tsDequeue { s0 with reqch := [wr] }).bpd.pc = .wSb ∧
    (after (.cmdBeginWrite .bw2) { atW .wSb with sr.startSent := true }).bpd.pc = .sendAddr ∧
    (after (.cmdBeginWrite .bw3) (atW .sendAddr)).bpd.pc = .wAmW ∧ (after (.cmdBeginRead .br3) (atR .sendAddr)).bpd.pc = .wAddrR ∧
    (after (.cmdBeginWrite .bw4) { atW .wAmW with sr.addrAcked := true, sr.master := true }).bpd.pc = .dataW ∧
    (after (.cmdBeginRead .br4) { atR .wAddrR with sr.addrAcked := true }).bpd.pc = .cfgAck ∧
    (after (.cmdBeginRead .br5) (atR .cfgAck)).bpd.pc = .wMslR ∧
    (after (.cmdBeginRead .br6) { atR .wMslR with sr.master := true }).bpd.pc = .dataR ∧
    (after .tsFinish { dataW 3 with ts.pc := .tsFinish }).bpd.pc = .ready ∧
    (after .tsAddrDone (atW .dataW)).ts.pc = .tsData ∧ (after .tsDataDone (dataW 3)).ts.pc = .tsFinish ∧
    (after .tsFinish { dataW 3 with ts.pc := .tsFinish }).ts.pc = .tsResp ∧ (after .tsPut { s0 with ts.pc := .tsResp }).ts.pc = .tsWait := by
  decide

/-- Each clause: a step that makes the change. -/
theorem witness_ControlBitWriters :
    (s0.ctl.start = false ∧ (after .tsDequeue { s0 with reqch := [wr] }).ctl.start = true) ∧
    (after .envStart { atW .wSb with ctl.start := true }).ctl.start = false ∧
    (s0.ctl.stop = false ∧ (after .cmdEnd (atW .wSb)).ctl.stop = true) ∧
    (after .envStop { s0 with ctl.stop := true }).ctl.stop = false ∧
    (s0.ctl.ack = false ∧ (after (.cmdBeginRead .br5) (atR .cfgAck)).ctl.ack = true) ∧
    (after (.cmdInit .sample) .reset).ctl.bteEn ≠ State.reset.ctl.bteEn := by decide

/-- Each clause: a step that makes the change. -/
theorem witness_FlagWriters :
    (after .envStart { atW .wSb with ctl.start := true }).sr.startSent = true ∧
    (after (.cmdBeginWrite .bw3) { atW .sendAddr with sr.startSent := true }).sr.startSent = false ∧
    (after .envAddrAck { atW .wAmW with hid.addrPending := true, sr.master := true }).sr.addrAcked = true ∧
    (after (.cmdBeginWrite .bw4) { atW .wAmW with sr.addrAcked := true, sr.master := true }).sr.addrAcked = false ∧
    (after .envArbLost (dataW 1)).sr.master = false ∧ (after (.dataWbyte .nack) (dataW 1)).sr.ackFail = true ∧
    (after .envBusError (dataW 1)).sr.busErr = true ∧ (after .envArbLost (dataW 1)).sr.arbLost = true ∧
    (after .tsFinish { dataW 1 with ts.pc := .tsFinish, sr.ackFail := true, sr.busErr := true, sr.arbLost := true }).sr =
      ⟨false, false, true, false, false, false⟩ ∧
    (after (.cmdBeginWrite .bw3) (atW .sendAddr)).hid.addrPending = true ∧
    (after .envAddrAck { atW .wAmW with hid.addrPending := true, sr.master := true }).hid.addrPending = false ∧
    (after .envAddrNack { atW .wAmW with hid.addrPending := true, sr.master := true }).hid.addrPending = false ∧
    (after .envStop { atW .wAmW with hid.addrPending := true, ctl.stop := true }).hid.addrPending = false ∧
    (after .envArbLost { atW .wAmW with hid.addrPending := true, sr.master := true }).hid.addrPending = false ∧
    (after .tsFinish { atW .wAmW with hid.addrPending := true, ts.pc := .tsFinish }).hid.addrPending = false ∧
    (after (.dataRbyte 1#8) (dataR 1)).hid.rxClosed = true ∧
    (after .tsDequeue { s0 with reqch := [rd], hid.rxClosed := true }).hid.rxClosed = false := by decide

/-- A step that changes each kind of item. -/
theorem witness_DataItemWriters :
    (after (.dataWbyte .ack) (dataW 0)).dr ≠ (dataW 0).dr ∧ (after (.dataWbyte .ack) (dataW 0)).bte.idx ≠ (dataW 0).bte.idx ∧
    (after .tsDequeue { s0 with reqch := [rd] }).bpd.size ≠ s0.bpd.size ∧ (after .tsDequeue { s0 with reqch := [rd] }).ts.req ≠ s0.ts.req ∧
    (after .tsAddrDone (atR .dataR)).bte.dir ≠ (atR .dataR).bte.dir ∧ (after .tsAddrDone (atR .dataR)).bte.n ≠ (atR .dataR).bte.n ∧
    (after (.dataRbyte 1#8) (dataR 0)).bte.buf ≠ (dataR 0).bte.buf ∧ (after .bteDisarm (dataR 0)).bte.armed ≠ (dataR 0).bte.armed ∧
    (after .tsDataFault { dataW 1 with sr.busErr := true }).ts.status ≠ (dataW 1).ts.status ∧
    (after .tsFinish { dataW 1 with ts.pc := .tsFinish }).draws ≠ (dataW 1).draws ∧
    (after (.chEnq 0 wr) s0).reqch ≠ s0.reqch ∧ (after .tsPut { s0 with ts.pc := .tsResp }).rspch ≠ s0.rspch ∧
    (after .envStart { atW .wSb with ctl.start := true }).trace ≠ (atW .wSb).trace := by decide

theorem witness_LaunchMeetsInvariant : ∀ e ∈ writeRun, Owned e = true := writeRun_owned

/-- The invariant at reset with nothing to come, and a step from there. -/
theorem witness_StepKeepsInvariant : ∃ s t : State, Inv s ∧ step s = .next t := by
  refine ⟨.reset, .reset, ⟨by simp [State.reset], fun _ => ?_⟩, rfl⟩
  constructor <;> simp [State.reset, AtRest, faultAny, inService, readPhase, writePhase, PairedInOrder, acceptedRequests,
    receivedResponses, frameAfter]

/-- A data phase (clauses a to c), a start pending (e), a start seen (f), an address pending (g), a response ready (h). -/
theorem witness_ReachableInvariants :
    (∃ s : State, Reachable s ∧ s.refused = false ∧ s.bpd.pc ≠ .ready ∧ s.bte.armed = true) ∧
    (∃ s : State, Reachable s ∧ s.refused = false ∧ s.ctl.start = true) ∧
    (∃ s : State, Reachable s ∧ s.refused = false ∧ s.sr.startSent = true) ∧
    (∃ s : State, Reachable s ∧ s.refused = false ∧ s.hid.addrPending = true) ∧
    (∃ s : State, Reachable s ∧ s.refused = false ∧ s.ts.pc = .tsResp) :=
  ⟨⟨_, reachable_of_run (n := 9) writeRun_owned rfl, rfl, by decide, rfl⟩, ⟨_, reachable_of_run (n := 3) writeRun_owned rfl, rfl, rfl⟩,
    ⟨_, reachable_of_run (n := 4) writeRun_owned rfl, rfl, rfl⟩, ⟨_, reachable_of_run (n := 6) writeRun_owned rfl, rfl, rfl⟩,
    ⟨_, reachable_of_run (n := 9) nackRun_owned rfl, rfl, rfl⟩⟩

theorem witness_ResponsesPairInOrder : ∃ s : State, Reachable s ∧ s.refused = false ∧ s.told = [.accepted 0 wr] :=
  ⟨_, reachable_of_run (n := 3) writeRun_owned rfl, rfl, rfl⟩

theorem witness_LengthLaws :
    (∃ s : State, Reachable s ∧ s.refused = false ∧ s.ts.pc = .tsResp) ∧
    (∃ s t u : State, Reachable s ∧ s.refused = false ∧ s.ts.pc = .tsAddr ∧ exec .tsAddrFault s = .next t ∧ t.ts.pc = .tsFinish ∧
      exec .tsFinish t = .next u) :=
  ⟨⟨_, reachable_of_run (n := 9) nackRun_owned rfl, rfl, rfl⟩,
    ⟨_, _, _, reachable_of_run (n := 7) nackRun_owned rfl, rfl, rfl, rfl, rfl, rfl⟩⟩

theorem witness_AcknowledgeBitBeforeData : ∃ s : State, Reachable s ∧ s.refused = false ∧ s.bpd.pc = .dataR :=
  ⟨_, reachable_of_run (n := 10) readRun_owned rfl, rfl, rfl⟩

theorem witness_TraceFramed : ∃ s : State, Reachable s ∧ s.refused = false ∧ s.trace = [.start, .addr 0xA0#8 .ack] :=
  ⟨_, reachable_of_run (n := 7) writeRun_owned rfl, rfl, rfl⟩

theorem witness_CountingLaw : ∃ s : State, Reachable s ∧ s.refused = false ∧ s.ts.pc = .tsData ∧ NoFault s :=
  ⟨_, reachable_of_run (n := 9) writeRun_owned rfl, rfl, rfl, rfl, rfl, rfl⟩

theorem witness_SilenceAfterFault :
    (∃ s : State, ¬NoFault s ∧ s.ctl.stop = true) ∧ (∃ s : State, ¬NoFault s ∧ s.sr.master = true ∧ s.ctl.stop = false) := by
  simp only [NoFault]
  exact ⟨⟨{ s0 with sr.busErr := true, ctl.stop := true }, by decide⟩, ⟨{ dataW 1 with sr.ackFail := true }, by decide⟩⟩

theorem witness_ErrorCountExact :
    ∃ s t : State, Reachable s ∧ s.refused = false ∧ ¬NoFault s ∧ innerStep .tsAddrFault = false ∧ exec .tsAddrFault s = .next t :=
  ⟨_, _, reachable_of_run (n := 7) nackRun_owned rfl, rfl, fun h => Bool.noConfusion h.1, rfl, rfl⟩

theorem witness_FaultBeatsCompletion :
    (∃ s : State, ¬NoFault s ∧ s.ts.pc = .tsData) ∧ (∃ s : State, ¬NoFault s ∧ s.ts.pc = .tsAddr ∧ s.par.faultExit = true) ∧
    (∃ s : State, ¬NoFault s ∧ s.ts.pc = .tsFinish ∧ s.bpd.inited = true ∧ s.bpd.pc ≠ .ready) := by
  simp only [NoFault]
  exact ⟨⟨{ dataW 3 with sr.busErr := true }, by decide⟩, ⟨{ atW .wAmW with sr.ackFail := true }, by decide⟩,
    ⟨{ dataW 3 with sr.busErr := true, ts.pc := .tsFinish }, by decide⟩⟩

/-- Both ways into the abort sequence. -/
theorem witness_AbortSequence :
    (∃ s : State, s.refused = false ∧ ¬NoFault s ∧ s.bpd.inited = true ∧ s.bpd.pc ≠ .ready ∧ s.rspch.length < s.par.rspCap ∧
      s.ts.pc = .tsAddr ∧ s.par.faultExit = true ∧ s.agenda = [move .tsAddrFault, move .tsFinish, move .tsPut, move .envStop]) ∧
    (∃ s : State, s.refused = false ∧ ¬NoFault s ∧ s.bpd.inited = true ∧ s.bpd.pc ≠ .ready ∧ s.rspch.length < s.par.rspCap ∧
      s.ts.pc = .tsData ∧ s.agenda = [move .tsDataFault, move .tsFinish, move .tsPut, move .envStop]) := by
  simp only [NoFault]
  exact ⟨⟨{ atW .wAmW with sr.ackFail := true, agenda := [move .tsAddrFault, move .tsFinish, move .tsPut, move .envStop] }, by decide⟩,
    ⟨{ dataR 1 with sr.arbLost := true, agenda := [move .tsDataFault, move .tsFinish, move .tsPut, move .envStop] }, by decide⟩⟩

theorem s0_quiescent : Quiescent s0 := ⟨rfl, rfl, rfl, rfl, rfl, rfl, rfl, rfl, rfl⟩

theorem witness_QuiescentRests :
    (Quiescent s0 ∧ agentOf .envBusError ≠ .prod ∧ innerStep .envBusError = false) ∧
    (∃ s : State, Reachable s ∧ s.refused = false ∧ s.ts.pc = .tsWait ∧ s.reqch = [] ∧ s.rspch = [] ∧ s.ctl.stop = false) :=
  ⟨⟨s0_quiescent, by decide⟩, ⟨_, reachable_of_run (n := 1) writeRun_owned rfl, rfl, rfl, rfl, rfl, rfl⟩⟩

theorem witness_WedgedBusHangs :
    (BpdStuck (atW .wSb) ∧ NoEnvMoves (atW .wSb).agenda ∧ Sys2Proof.core.run 0 (atW .wSb) = .next (atW .wSb)) ∧
    (DataStuck (dataW 1) ∧ NoEnvMoves (dataW 1).agenda ∧ Sys2Proof.core.run 0 (dataW 1) = .next (dataW 1)) := by
  simp only [BpdStuck, DataStuck, NoFault, NoEnvMoves]
  exact ⟨⟨by decide, by simp [atW, s0, State.reset], rfl⟩, ⟨by decide, by simp [dataW, atW, s0, State.reset], rfl⟩⟩

theorem witness_FaultExitFalseHangs :
    (∃ s : State, s.par.faultExit = false ∧ s.ts.pc = .tsAddr ∧ bpdWaits s = true ∧ ¬NoFault s ∧ (∀ e ∈ s.agenda, Owned e = true) ∧
      Sys2Proof.core.run 0 s = .next s) ∧
    (∃ s : State, s.ts.pc = .tsData ∧ ¬NoFault s) := by
  simp only [NoFault]
  exact ⟨⟨{ atW .wAmW with sr.ackFail := true, par.faultExit := false }, by decide, by decide, by decide, by decide, by decide, rfl⟩,
    ⟨{ dataW 1 with sr.arbLost := true }, by decide⟩⟩

theorem s0_ready (agenda : List Stimulus) : ReadyFor 0 { s0 with agenda := agenda } :=
  ⟨⟨rfl, rfl, rfl, rfl, rfl, rfl, rfl, rfl, rfl⟩, rfl, rfl, rfl, rfl, Nat.le_refl 1, Nat.le_refl 1, Nat.one_pos⟩

theorem witness_WriteEndToEnd :
    ReadyFor 0 { s0 with agenda := writeMoves 0 wr } ∧ isWrite wr = true ∧ admitted wr = true := ⟨s0_ready _, by decide⟩

theorem witness_ReadEndToEnd :
    ReadyFor 0 { s0 with agenda := readMoves 0 rd [0x41#8, 0x42#8] } ∧ isRead rd = true ∧ admitted rd = true ∧
    [0x41#8, 0x42#8].length = rd.length.toNat := ⟨s0_ready _, by decide⟩

theorem witness_AddressNackEndToEnd :
    ReadyFor 0 { s0 with agenda := addressNackMoves 0 rd } ∧ s0.par.faultExit = true ∧ admitted rd = true := ⟨s0_ready _, by decide⟩

theorem witness_ByteNackEndToEnd :
    ReadyFor 0 { s0 with agenda := byteNackMoves 0 wr 2 } ∧ isWrite wr = true ∧ admitted wr = true ∧ 2 < wr.length.toNat :=
  ⟨s0_ready _, by decide⟩

theorem witness_ReadCutByFault :
    ReadyFor 0 { s0 with agenda := cutReadMoves 0 rd [0x11#8] .envArbLost } ∧ isRead rd = true ∧ admitted rd = true ∧
    [0x11#8].length < rd.length.toNat := ⟨s0_ready _, by decide⟩

theorem witness_OneAtATime :
    ReadyFor 0 { s0 with agenda := oneAtATime 0 [(wr, []), (rd, [0x41#8, 0x42#8])] } ∧
    ∀ j ∈ [(wr, []), (rd, [0x41#8, 0x42#8])], JobOk j := by
  refine ⟨s0_ready _, ?_⟩
  simp only [JobOk]
  decide

/-- A target with one stored byte, at the fixture's base address. -/
def target : Eeprom := ⟨0x50#7, [(0x1FF, 0x5A#8)], 0, false⟩

theorem witness_EepromReadReturnsStored :
    ReadyFor 0 { s0 with agenda := eerdMoves 0 target 0x1FF#9 1#8 } ∧ target.base.getLsbD 0 = false ∧ 1 ≤ (1#8).toNat ∧
    (1#8).toNat ≤ 16 := ⟨s0_ready _, by decide⟩

theorem witness_EepromWriteStores :
    ReadyFor 0 { s0 with agenda := writeMoves 0 (eewrRequest target 0x010#9 [0xAA#8, 0xBB#8]) } ∧ target.base.getLsbD 0 = false ∧
    Memory.wf target.mem = true ∧ [0xAA#8, 0xBB#8].length ≤ 15 ∧ (0x010#9).toNat % 16 + [0xAA#8, 0xBB#8].length ≤ 16 :=
  ⟨s0_ready _, by decide⟩

end Sys2Proof.Tests
end

section
/-! SUPPORT. What a step does whose `pre` is false (00_scope R13, A2): nothing. The guards of the model in the spec's words come first. -/

namespace Sys2Proof.Machine

/-! ### The model's guards in the spec's words -/

/-- `¬fault_any` as the model computes it (10_state R35). -/
@[simp] theorem faultAny_eq_false_iff (s : State) : faultAny s = false ↔ NoFault s := by
  simp [faultAny, NoFault, and_assoc]

@[simp] theorem faultAny_eq_true_iff (s : State) : faultAny s = true ↔ ¬NoFault s := by
  rw [← faultAny_eq_false_iff, Bool.not_eq_false]

/-- The guard `G` as the model computes it (40 R120). -/
@[simp] theorem bpdGuard_iff (s : State) : bpdGuard s = true ↔ GuardG s := by
  cases h : s.par.faultExit <;> simp [bpdGuard, GuardG, h]

@[simp] theorem inDataState_iff (s : State) : inDataState s = true ↔ s.bpd.pc = .dataW ∨ s.bpd.pc = .dataR := by
  simp [inDataState]

@[simp] theorem dataStepReady_iff (s : State) :
    dataStepReady s = true ↔
      s.bte.armed = true ∧ s.ts.pc = .tsData ∧ s.sr.master = true ∧ s.sr.addrAcked = false ∧ NoFault s := by
  simp [dataStepReady, and_assoc]

@[simp] theorem addressGoesOut_iff (s : State) :
    addressGoesOut s = true ↔ s.hid.addrPending = true ∧ s.sr.master = true ∧ s.ctl.stop = false ∧ NoFault s := by
  simp [addressGoesOut, and_assoc]

@[simp] theorem faultMayStrike_iff (s : State) :
    faultMayStrike s = true ↔ (s.ctl.start = true ∨ s.sr.master = true) ∧ s.ctl.stop = false := by
  simp [faultMayStrike]

@[simp] theorem producer_iff (k : Nat) (s : State) : producer k s = true ↔ k < s.par.nProducers := by simp [producer]

@[simp] theorem hasRoom_iff (s : State) : hasRoom s = true ↔ s.reqch.length < s.par.reqCap := by simp [hasRoom]

@[simp] theorem isFull_iff (s : State) : isFull s = true ↔ s.reqch.length = s.par.reqCap := by simp [isFull]

/-- The model's test of a CFG record against its three admitted values (30_encoding R94). -/
@[simp] theorem cfgAccepted_iff (c : CfgRecord) :
    cfgAccepted c = true ↔ c.busSpeed = .fastMode400kHz ∧ c.analogFilter = true ∧ c.digitalFilter = false := by
  simp [cfgAccepted, and_assoc]

/-! ### Waiting -/

/-- A guarded step whose `pre`, said as a proposition, is false changes nothing (A2). -/
theorem stepWhen_of_not {pre : Bool} {P : Prop} {eff s : State} (hpre : pre = true → P) (h : ¬P) :
    stepWhen pre eff s = .next s :=
  stepWhen_next.2 (.inr ⟨Bool.eq_false_iff.2 (mt hpre h), rfl⟩)

/-- An INIT that is the first and whose operands are in order waits outside READY and TS_WAIT (40 R121, A18). -/
theorem execCmdInit_waits {c : CfgRecord} {s : State} (hi : s.bpd.inited = false) (hc : cfgAccepted c = true)
    (h : ¬(s.bpd.pc = .ready ∧ s.ts.pc = .tsWait)) : execCmdInit c s = .next s := by
  have hnot : ¬(s.bpd.inited || !cfgAccepted c) = true := by rw [hi, hc]; decide
  rw [execCmdInit, if_neg hnot]
  exact stepWhen_of_not (by simp) h

/-- TS1 waits, with an empty channel or outside its guard (42 R177). -/
theorem execTsDequeue_waits {s : State} (h : ¬(s.ts.pc = .tsWait ∧ s.reqch ≠ [] ∧ s.bpd.inited = true)) :
    execTsDequeue s = .next s := by
  unfold execTsDequeue
  split
  · rfl
  next r rest hq => exact stepWhen_of_not (by simp +contextual [hq]) h

/-- DP1 waits, with no byte left or outside its guard (41 R153). -/
theorem execDataWbyte_waits {answer : Answer} {s : State}
    (h : ¬(s.bte.armed = true ∧ s.bte.dir = false ∧ s.bpd.pc = .dataW ∧ s.ts.pc = .tsData ∧ s.bte.idx.val < s.bte.n.val ∧
      s.sr.master = true ∧ s.sr.addrAcked = false ∧ NoFault s)) : execDataWbyte answer s = .next s := by
  unfold execDataWbyte
  split
  · rfl
  next i hi =>
    have hlt := (nextIndex_some.1 hi).1
    exact stepWhen_of_not (by simp +contextual [hlt]) h

/-- DP2 waits, with no byte left or outside its guard (41 R154). -/
theorem execDataRbyte_waits {b : Byte} {s : State}
    (h : ¬(s.bte.armed = true ∧ s.bte.dir = true ∧ s.bpd.pc = .dataR ∧ s.ts.pc = .tsData ∧ s.bte.idx.val < s.bte.n.val ∧
      s.sr.master = true ∧ s.sr.addrAcked = false ∧ NoFault s ∧ s.hid.rxClosed = false)) : execDataRbyte b s = .next s := by
  unfold execDataRbyte
  split
  · rfl
  next i hi =>
    have hlt := (nextIndex_some.1 hi).1
    exact stepWhen_of_not (by simp +contextual [hlt]) h

/-- PR3 waits (42 R174). -/
theorem receive_waits {k : Nat} {s : State} (h : ¬(k < s.par.nProducers ∧ s.rspch ≠ [])) : receive k s = s := by
  obtain ⟨q, rest, hk, hq, -⟩ | he := receive_cases k s
  · exact absurd ⟨(producer_iff k s).1 hk, by simp [hq]⟩ h
  · exact he

end Sys2Proof.Machine
end

section
/-! PROOFS. The statements about steps whose `pre` is false (00_scope R13). -/

namespace Sys2Proof.Machine

/-- Settles O7, guard by guard: a WA row's `pre` is that of BW3 or BR3 and its own address besides. -/
theorem driverWaits : Obligations.DriverWaits := by
  intro c s
  refine ⟨stepWhen_of_not ?bw2, fun h => ⟨stepWhen_of_not ?bw3 h, fun a => stepWhen_of_not ?waWrite h⟩,
    stepWhen_of_not ?bw4, stepWhen_of_not ?br2,
    fun h => ⟨stepWhen_of_not ?br3 h, fun a => stepWhen_of_not ?waRead h⟩,
    stepWhen_of_not ?br4, stepWhen_of_not ?br5, stepWhen_of_not ?br6,
    fun hi hs ha hd h => execCmdInit_waits hi ((cfgAccepted_iff c).2 ⟨hs, ha, hd⟩) h⟩
  all_goals simp +contextual

/-- Settles O26, guard by guard; TS1, DP1, DP2 and PR3 also branch on a channel or an index and have lemmas of their own. -/
theorem otherAgentsWait : Obligations.OtherAgentsWait := by
  intro k r answer b s
  refine ⟨execTsDequeue_waits, stepWhen_of_not ?tsAddrDone, stepWhen_of_not ?tsAddrFault, stepWhen_of_not ?tsDataDone,
    stepWhen_of_not ?tsDataFault, stepWhen_of_not ?tsFinish, stepWhen_of_not ?tsPut, execDataWbyte_waits, execDataRbyte_waits,
    stepWhen_of_not ?envStart, fun h => ⟨stepWhen_of_not ?envAddrAck h, stepWhen_of_not ?envAddrNack h⟩,
    fun h => stepWhen_of_not id (Bool.eq_false_iff.1 h),
    fun h => ⟨stepWhen_of_not ?envBusError h, stepWhen_of_not ?envArbLost h⟩,
    stepWhen_of_not ?chEnq, stepWhen_of_not ?chEnqReject, fun h => congrArg _ (receive_waits h)⟩
  all_goals simp +contextual

end Sys2Proof.Machine
end

section
/-! SUPPORT. What `CoreInv` says in the situations the steps meet: the framing of the trace one event at a time (43 R220), the pairing of
requests and responses one note at a time (42 R185), and the bits that are settled outside W_SB. -/

namespace Sys2Proof.Machine

variable {s t : State}

/-! ### Framing -/

theorem frameAfter_append (w : List WireEvent) (e : WireEvent) :
    frameAfter (w ++ [e]) = (frameAfter w).bind fun f => frameNext f e := by
  simp [frameAfter]

/-- The clause `CoreInv.framed`. -/
def Framed (s : State) : Prop :=
  ∃ f, frameAfter s.trace = some f ∧ (s.sr.master = true → f ≠ .free) ∧
    (s.sr.master = true → faultAny s = false → ∀ g, frameExpected s = some g → f = g)

/-- A master that has met no fault stands in the frame its state calls for. -/
theorem CoreInv.frameAfter_trace (h : CoreInv s) (hm : s.sr.master = true) (hf : faultAny s = false) {g : FrameState}
    (hg : frameExpected s = some g) : frameAfter s.trace = some g := by
  obtain ⟨f, hft, -, hexp⟩ := h.framed
  rw [hft, hexp hm hf g hg]

/-- A step without a wire event keeps the framing if it calls for no frame the state before did not call for. -/
theorem Framed.of_trace_eq (h : Framed s) (htr : t.trace = s.trace) (hm : t.sr.master = true → s.sr.master = true)
    (hexp : t.sr.master = true → faultAny t = false → faultAny s = false ∧
      ∀ g, frameExpected t = some g → frameExpected s = some g) : Framed t := by
  obtain ⟨f, hft, hopen, hfs⟩ := h
  refine ⟨f, htr ▸ hft, fun h' => hopen (hm h'), fun h' hf g hg => ?_⟩
  obtain ⟨hfault, hframe⟩ := hexp h' hf
  exact hfs (hm h') hfault g (hframe g hg)

/-- A wire event that the grammar allows and that leads to an open frame keeps the framing. -/
theorem Framed.of_event {f g : FrameState} {e : WireEvent} (hf : frameAfter s.trace = some f) (htr : t.trace = s.trace ++ [e])
    (hnext : frameNext f e = some g) (hopen : g ≠ .free)
    (hexp : faultAny t = false → ∀ x, frameExpected t = some x → g = x) : Framed t :=
  ⟨g, by rw [htr, frameAfter_append, hf, Option.bind_some, hnext], fun _ => hopen, fun _ => hexp⟩

/-- A start is allowed in every frame state (43 R220). -/
theorem frameNext_start (f : FrameState) : frameNext f .start = some .started := by cases f <;> rfl

/-- A stop is allowed in every open frame (43 R220). -/
theorem frameNext_stop {f : FrameState} (h : f ≠ .free) : frameNext f .stop = some .free := by
  cases f <;> simp_all [frameNext]

/-! ### Requests and responses -/

@[simp] theorem acceptedRequests_accepted (ns : List ProducerNote) (k : Nat) (r : TransferRequest) :
    acceptedRequests (ns ++ [.accepted k r]) = acceptedRequests ns ++ [r] := by simp [acceptedRequests]
@[simp] theorem acceptedRequests_rejected (ns : List ProducerNote) (k : Nat) (r : TransferRequest) :
    acceptedRequests (ns ++ [.rejected k r]) = acceptedRequests ns := by simp [acceptedRequests]
@[simp] theorem acceptedRequests_received (ns : List ProducerNote) (k : Nat) (q : TransferResponse) :
    acceptedRequests (ns ++ [.received k q]) = acceptedRequests ns := by simp [acceptedRequests]
@[simp] theorem receivedResponses_accepted (ns : List ProducerNote) (k : Nat) (r : TransferRequest) :
    receivedResponses (ns ++ [.accepted k r]) = receivedResponses ns := by simp [receivedResponses]
@[simp] theorem receivedResponses_rejected (ns : List ProducerNote) (k : Nat) (r : TransferRequest) :
    receivedResponses (ns ++ [.rejected k r]) = receivedResponses ns := by simp [receivedResponses]
@[simp] theorem receivedResponses_received (ns : List ProducerNote) (k : Nat) (q : TransferResponse) :
    receivedResponses (ns ++ [.received k q]) = receivedResponses ns ++ [q] := by simp [receivedResponses]

/-- A TS that waits serves no request. -/
theorem inService_of_wait (h : s.ts.pc = .tsWait) : inService s = [] := by simp [inService, h]

/-- A TS that does not wait serves the request it has latched. -/
theorem inService_of_ne (h : s.ts.pc ≠ .tsWait) : inService s = [s.ts.req] := by
  unfold inService
  split
  · exact absurd ‹_› h
  · rfl

/-! ### Rest and service -/

theorem CoreInv.not_atRest (h : CoreInv s) (hp : s.bpd.pc ≠ .ready) : ¬AtRest s := fun hr => hp (h.rest hr).1

/-- Outside rest TS is in the service of a request, with a command open. -/
theorem not_atRest_iff : ¬AtRest s ↔ s.ts.pc = .tsAddr ∨ s.ts.pc = .tsData ∨ s.ts.pc = .tsFinish := by
  cases hts : s.ts.pc <;> simp [AtRest, hts]

/-- Once the start went out, or past W_SB, no start is pending. -/
theorem CoreInv.start_false (h : CoreInv s) (hp : s.bpd.pc ≠ .wSb ∨ s.sr.startSent = true) : s.ctl.start = false := by
  refine Bool.eq_false_iff.2 fun hs => ?_
  obtain ⟨hpc, hss, -⟩ := h.startBit hs
  simp [hpc, hss] at hp

/-- While a request is in service a stop is pending only where a start still is. -/
theorem CoreInv.stop_false (h : CoreInv s) (hr : ¬AtRest s) (hs : s.ctl.start = false) : s.ctl.stop = false := by
  refine Bool.eq_false_iff.2 fun hstop => ?_
  obtain ⟨-, hrest | ⟨-, -, hstart⟩⟩ := h.stopBit hstop
  · exact hr hrest
  · simp [hs] at hstart

/-- An address byte pends only in W_AM_W and W_ADDR_R. -/
theorem CoreInv.addrPending_false (h : CoreInv s) (hw : s.bpd.pc ≠ .wAmW) (hr : s.bpd.pc ≠ .wAddrR) : s.hid.addrPending = false := by
  refine Bool.eq_false_iff.2 fun hp => ?_
  obtain ⟨hpc, -⟩ := h.addrPending hp
  exact hpc.elim hw hr

/-- No address byte pends once it was acknowledged. -/
theorem CoreInv.addrPending_false_of_acked (h : CoreInv s) (ha : s.sr.addrAcked = true) : s.hid.addrPending = false := by
  refine Bool.eq_false_iff.2 fun hp => ?_
  obtain ⟨-, -, hn⟩ := h.addrPending hp
  simp [ha] at hn

/-- In a data state no stop and no address byte pends. -/
theorem CoreInv.settled_of_inDataState (h : CoreInv s) (hr : ¬AtRest s) (hd : inDataState s = true) :
    s.ctl.stop = false ∧ s.hid.addrPending = false := by
  have hne : s.bpd.pc ≠ .wSb ∧ s.bpd.pc ≠ .wAmW ∧ s.bpd.pc ≠ .wAddrR := by
    rcases (inDataState_iff s).1 hd with hpc | hpc <;> simp [hpc]
  obtain ⟨hsb, hw, har⟩ := hne
  exact ⟨h.stop_false hr (h.start_false (.inl hsb)), h.addrPending_false hw har⟩

/-- In the address phase of a read no byte has been received. -/
theorem CoreInv.rxClosed_false (h : CoreInv s) (hts : s.ts.pc = .tsAddr) (hrw : s.bpd.rw = true) : s.hid.rxClosed = false := by
  obtain ⟨-, -, -, hopen⟩ := h.addrPhase hts
  exact hopen hrw

end Sys2Proof.Machine
end

section
/-! SUPPORT. The steps of the address phase (40 R122, R123) keep `CoreInv`. -/

namespace Sys2Proof.Machine

variable {s : State}

/-- BW2, BR2. -/
theorem CoreInv.sendAddress (h : CoreInv s) (hts : s.ts.pc = .tsAddr) (hpc : s.bpd.pc = .wSb) (hss : s.sr.startSent = true) :
    CoreInv { s with bpd.pc := .sendAddr } := by
  have hr := not_atRest_iff.2 (.inl hts)
  have hstart := h.start_false (.inr hss)
  have hstop := h.stop_false hr hstart
  have hpend := h.addrPending_false (by simp [hpc]) (by simp [hpc])
  have hacked : s.sr.addrAcked = false := by simpa [hpc] using h.addrAcked
  obtain ⟨-, hservice⟩ := h.service hr
  exact { h with
    rest := fun hr' => absurd hr' hr
    service := fun _ => ⟨by simp, hservice⟩
    dataPhase := by simp [hts]
    startBit := by simp [hstart]
    startSent := by simp
    addrPending := by simp [hpend]
    addrAcked := by simp [hacked]
    stopBit := by simp [hstop]
    direction := by simp [writePhase, readPhase]
    ackBit := by simp
    framed := Framed.of_trace_eq h.framed rfl id fun _ hf => ⟨hf, by simp [frameExpected, hpc, hss]⟩ }

/-- BW3, BR3: the next state is the one that waits for the acknowledge of the open command's direction. -/
theorem CoreInv.writeAddressByte {p : BpdPc} (h : CoreInv s) (hts : s.ts.pc = .tsAddr) (hpc : s.bpd.pc = .sendAddr)
    (hp : p = .wAmW ∧ s.bpd.rw = false ∨ p = .wAddrR ∧ s.bpd.rw = true) : CoreInv (writeAddressByte p s) := by
  have hr := not_atRest_iff.2 (.inl hts)
  have hstart := h.start_false (.inl (by simp [hpc]))
  have hstop := h.stop_false hr hstart
  have hacked : s.sr.addrAcked = false := by simpa [hpc] using h.addrAcked
  obtain ⟨-, hservice⟩ := h.service hr
  have hwait : p = .wAmW ∨ p = .wAddrR := hp.imp And.left And.left
  exact { h with
    rest := fun hr' => absurd hr' hr
    service := fun _ => ⟨by rcases hwait with rfl | rfl <;> simp, hservice⟩
    dataPhase := by simp [hts]
    startBit := by simp [hstart]
    startSent := by simp
    addrPending := fun _ => ⟨hwait, rfl, hacked⟩
    addrAcked := by simp [hacked]
    stopBit := by simp [hstop]
    direction := by rcases hp with ⟨rfl, hrw⟩ | ⟨rfl, hrw⟩ <;> simp [writePhase, readPhase, hrw]
    ackBit := by rcases hwait with rfl | rfl <;> simp
    framed := Framed.of_trace_eq h.framed rfl id fun _ hf => ⟨hf, by
      rcases hwait with rfl | rfl <;> simp [frameExpected, hpc]⟩ }

/-- A step past the acknowledged address byte, to `p`: what it must say of the next state. -/
theorem CoreInv.advance {p : BpdPc} {acked ack : Bool} (h : CoreInv s) (hts : s.ts.pc = .tsAddr)
    (hold : s.bpd.pc = .wAmW ∨ readPhase s.bpd.pc = true) (hpend : s.hid.addrPending = false) (hready : p ≠ .ready)
    (hdir : (writePhase p = true → s.bpd.rw = false) ∧ (readPhase p = true → s.bpd.rw = true))
    (hacked : acked = true → p = .wAmW ∨ p = .wAddrR ∨ p = .cfgAck ∨ p = .wMslR)
    (hack : p = .wMslR ∨ p = .dataR → ack = Machine.ackBit s.bpd.size)
    (hframe : ∀ g, frameExpected { s with bpd.pc := p } = some g → frameExpected s = some g) :
    CoreInv { s with sr.addrAcked := acked, ctl.ack := ack, bpd.pc := p } := by
  have hr := not_atRest_iff.2 (.inl hts)
  have hsb : s.bpd.pc ≠ .wSb := by rintro hpc; simp [hpc, readPhase] at hold
  have hsend : s.bpd.pc ≠ .sendAddr := by rintro hpc; simp [hpc, readPhase] at hold
  have hstart := h.start_false (.inl hsb)
  have hstop := h.stop_false hr hstart
  have hsent : s.sr.startSent = false := by simpa [hsb, hsend] using h.startSent
  obtain ⟨-, hservice⟩ := h.service hr
  exact { h with
    rest := fun hr' => absurd hr' hr
    service := fun _ => ⟨hready, hservice⟩
    dataPhase := by simp [hts]
    startBit := by simp [hstart]
    startSent := by simp [hsent]
    addrPending := by simp [hpend]
    addrAcked := hacked
    stopBit := by simp [hstop]
    direction := hdir
    ackBit := hack
    framed := Framed.of_trace_eq h.framed rfl id fun _ hf => ⟨hf, hframe⟩ }

/-- BW4. -/
theorem CoreInv.openWrite (h : CoreInv s) (hts : s.ts.pc = .tsAddr) (hpc : s.bpd.pc = .wAmW) (hacked : s.sr.addrAcked = true) :
    CoreInv { s with sr.addrAcked := false, bpd.pc := .dataW } := by
  have hpend := h.addrPending_false_of_acked hacked
  have hrw : s.bpd.rw = false := h.direction.1 (by simp [writePhase, hpc])
  exact h.advance hts (.inl hpc) hpend (by simp) (by simp [readPhase, hrw]) (by simp) (by simp)
    (by simp [frameExpected, hpc, hpend])

/-- BR4. -/
theorem CoreInv.addressAcknowledged (h : CoreInv s) (hts : s.ts.pc = .tsAddr) (hpc : s.bpd.pc = .wAddrR)
    (hacked : s.sr.addrAcked = true) : CoreInv { s with bpd.pc := .cfgAck } := by
  have hphase : readPhase s.bpd.pc = true := by simp [readPhase, hpc]
  have hpend := h.addrPending_false_of_acked hacked
  exact h.advance hts (.inr hphase) hpend (by simp) (by simp [writePhase, h.direction.2 hphase]) (by simp) (by simp)
    (by simp [frameExpected, hpc, hpend])

/-- BR5. -/
theorem CoreInv.configureAck (h : CoreInv s) (hts : s.ts.pc = .tsAddr) (hpc : s.bpd.pc = .cfgAck) :
    CoreInv { s with ctl.ack := Machine.ackBit s.bpd.size, bpd.pc := .wMslR } := by
  have hphase : readPhase s.bpd.pc = true := by simp [readPhase, hpc]
  have hpend := h.addrPending_false (by simp [hpc]) (by simp [hpc])
  exact h.advance hts (.inr hphase) hpend (by simp) (by simp [writePhase, h.direction.2 hphase]) (by simp) (by simp)
    (by simp [frameExpected, hpc])

/-- BR6: no byte has been received yet. -/
theorem CoreInv.openRead (h : CoreInv s) (hts : s.ts.pc = .tsAddr) (hpc : s.bpd.pc = .wMslR) :
    CoreInv { s with sr.addrAcked := false, bpd.pc := .dataR } := by
  have hphase : readPhase s.bpd.pc = true := by simp [readPhase, hpc]
  have hrw := h.direction.2 hphase
  have hpend := h.addrPending_false (by simp [hpc]) (by simp [hpc])
  have hopen : s.hid.rxClosed = false := h.rxClosed_false hts hrw
  exact h.advance hts (.inr hphase) hpend (by simp) (by simp [writePhase, hrw]) (by simp)
    (fun _ => h.ackBit (.inl hpc)) (by simp [frameExpected, hpc, hopen])

end Sys2Proof.Machine
end

section
/-! SUPPORT. The steps of the environment (43) and the data steps (41) keep `CoreInv`. -/

namespace Sys2Proof.Machine

variable {s t : State}

/-- A fault calls for no frame. -/
theorem Framed.of_fault (h : Framed s) (htr : t.trace = s.trace) (hm : t.sr.master = true → s.sr.master = true)
    (hf : faultAny t = true) : Framed t :=
  h.of_trace_eq htr hm fun _ hn => by simp [hf] at hn

/-- A block that is no master may stand in any frame the grammar allows. -/
theorem framed_of_not_master (hm : s.sr.master = false) (hf : (frameAfter s.trace).isSome = true) : Framed s := by
  obtain ⟨f, hf⟩ := Option.isSome_iff_exists.1 hf
  exact ⟨f, hf, by simp [hm], by simp [hm]⟩

/-- EV1. -/
theorem CoreInv.startGoesOut (h : CoreInv s) (hstart : s.ctl.start = true) (hstop : s.ctl.stop = false) :
    CoreInv { emit .start s with ctl.start := false, sr.startSent := true, sr.master := true } := by
  obtain ⟨hpc, -, -⟩ := h.startBit hstart
  have hr := h.not_atRest (by simp [hpc])
  obtain ⟨f, hf, -⟩ := h.framed
  exact { h with
    rest := fun hr' => absurd hr' hr
    startBit := by simp
    startSent := fun _ => .inl hpc
    stopBit := by simp [hstop]
    framed := Framed.of_event hf rfl (frameNext_start f) (by simp) fun _ x => by simp [frameExpected, hpc] }

/-- The address byte goes out in the frame its start opened. -/
theorem CoreInv.frame_of_addressGoesOut (h : CoreInv s) (hp : s.hid.addrPending = true) (hm : s.sr.master = true)
    (hf : faultAny s = false) : frameAfter s.trace = some .started := by
  obtain ⟨hpc | hpc, -⟩ := h.addrPending hp <;> exact h.frameAfter_trace hm hf (by simp [frameExpected, hpc, hp])

/-- EV2: the direction bit of the address byte opens the frame that the waiting micro-state calls for. -/
theorem CoreInv.addressAcked (h : CoreInv s) (hg : addressGoesOut s = true) :
    CoreInv { emit (.addr s.dr .ack) s with sr.addrAcked := true, hid.addrPending := false } := by
  simp only [addressGoesOut, Bool.and_eq_true, Bool.not_eq_true'] at hg
  obtain ⟨⟨⟨hp, hm⟩, hstop⟩, hf⟩ := hg
  obtain ⟨hpc, hdr, -⟩ := h.addrPending hp
  have hr := h.not_atRest (by rcases hpc with hpc | hpc <;> simp [hpc])
  exact { h with
    rest := fun hr' => absurd hr' hr
    addrPending := by simp
    addrAcked := fun _ => hpc.imp id .inl
    framed := by
      refine Framed.of_event (h.frame_of_addressGoesOut hp hm hf) rfl rfl (by split <;> simp) fun _ x => ?_
      rcases hpc with hpc | hpc
      · simp [frameExpected, hpc, hdr, h.direction.1 (by simp [writePhase, hpc])]
      · simp [frameExpected, hpc, hdr, h.direction.2 (by simp [readPhase, hpc])] }

/-- EV3. -/
theorem CoreInv.addressRefused (h : CoreInv s) (hg : addressGoesOut s = true) :
    CoreInv (raiseFault .ackFailure { emit (.addr s.dr .nack) s with hid.addrPending := false }) := by
  simp only [addressGoesOut, Bool.and_eq_true, Bool.not_eq_true'] at hg
  obtain ⟨⟨⟨hp, hm⟩, hstop⟩, hf⟩ := hg
  have hr : ¬AtRest s := fun hr => by simp [h.rest hr] at hp
  exact { h with
    rest := fun hr' => absurd hr' hr
    addrPending := by simp
    stopBit := by simp [hstop]
    framed := Framed.of_event (h.frame_of_addressGoesOut hp hm hf) rfl rfl (by simp) (by simp) }

/-- EV4. -/
theorem CoreInv.completeStop (h : CoreInv s) : CoreInv (completeStop s) := by
  rw [completeStop_eq]
  exact { h with
    rest := fun hr => by
      obtain ⟨hpc, harmed, hfault, hstart, hsent, hacked, -, -⟩ := h.rest hr
      exact ⟨hpc, harmed, hfault, hstart, hsent, hacked, rfl, by simp⟩
    startBit := fun hs => by
      obtain ⟨hpc, hsent, -⟩ := h.startBit hs
      exact ⟨hpc, hsent, by simp⟩
    addrPending := by simp
    stopBit := by simp
    framed := framed_of_not_master rfl <| by
      obtain ⟨f, hf, hopen, -⟩ := h.framed
      cases hm : s.sr.master
      · simp [hf]
      · simp [frameAfter_append, hf, frameNext_stop (hopen hm)] }

/-- A fault that strikes an open transaction whose stop is not yet requested. -/
theorem CoreInv.raiseFault (h : CoreInv s) (k : FaultKind) (hr : ¬AtRest s) (hstop : s.ctl.stop = false) :
    CoreInv (raiseFault k s) := by
  cases k with
  | ackFailure | busError => exact { h with
      rest := fun hr' => absurd hr' hr
      stopBit := by simp [hstop]
      framed := Framed.of_fault h.framed (by simp) (by simp) (by simp) }
  | arbitrationLost => exact { h with
      rest := fun hr' => absurd hr' hr
      startBit := fun hs => by
        obtain ⟨hpc, hsent, -⟩ := h.startBit hs
        exact ⟨hpc, hsent, by simp⟩
      addrPending := by simp
      stopBit := by simp [hstop]
      framed := Framed.of_fault h.framed (by simp) (by simp) (by simp) }

/-- EV5, EV6. -/
theorem CoreInv.faultStrikes (h : CoreInv s) (k : FaultKind) (hg : faultMayStrike s = true) : CoreInv (Machine.raiseFault k s) := by
  rw [faultMayStrike_iff] at hg
  obtain ⟨hopen, hstop⟩ := hg
  refine h.raiseFault k (fun hr => ?_) hstop
  obtain ⟨-, -, -, hstart, -, -, -, hmaster⟩ := h.rest hr
  simp [hstart, hstop] at hopen hmaster
  simp [hopen] at hmaster

/-- What the guard of the data steps says besides their own conditions. -/
theorem CoreInv.dataStep (h : CoreInv s) (hg : dataStepReady s = true) :
    s.ts.pc = .tsData ∧ s.sr.master = true ∧ faultAny s = false ∧ ¬AtRest s ∧ s.ctl.stop = false ∧ s.hid.addrPending = false := by
  simp only [dataStepReady, Bool.and_eq_true, beq_iff_eq, Bool.not_eq_true'] at hg
  obtain ⟨⟨⟨⟨-, hts⟩, hm⟩, -⟩, hf⟩ := hg
  obtain ⟨-, hdata, -⟩ := h.dataPhase hts
  have hr := not_atRest_iff.2 (.inr (.inl hts))
  exact ⟨hts, hm, hf, hr, h.settled_of_inDataState hr hdata⟩

/-- DP1. -/
theorem CoreInv.sendByte {i : Fin 16} (h : CoreInv s) (k : Answer) (hg : dataStepReady s = true) (hi : i.val = s.bte.idx.val)
    (hlt : s.bte.idx.val < s.bte.n.val) (hdir : s.bte.dir = false) (hpc : s.bpd.pc = .dataW) : CoreInv (sendByte i k s) := by
  obtain ⟨hts, hm, hf, hr, hstop, hpend⟩ := h.dataStep hg
  obtain ⟨harmed, hdata, hn, hrw, -⟩ := h.dataPhase hts
  have hframe : frameAfter s.trace = some .writing := h.frameAfter_trace hm hf (by simp [frameExpected, hpc])
  cases k with
  | ack => exact { h with
      addrPhase := by simp [hts]
      dataPhase := fun _ => ⟨harmed, hdata, hn, hrw, by simp [← hrw, hdir]⟩
      finish := by simp [hts]
      count := by simp [Fin.le_def, hi]; omega
      addrPending := by simp [hpend]
      framed := Framed.of_event hframe rfl rfl (by simp) fun _ x => by simp [frameExpected, hpc] }
  | nack => exact { h with
      rest := fun hr' => absurd hr' hr
      addrPending := by simp [hpend]
      stopBit := by simp [hstop]
      framed := Framed.of_event hframe (sendByte_trace i .nack s) rfl (by simp) (by simp [NoFault]) }

/-- With the acknowledge bit BR5 writes and `ctl.last` set, exactly the last byte of a read is answered NACK (41 R151). -/
theorem readAnswer_eq_nack_iff {n i : Count} (hi : i.val < n.val) :
    readAnswer (ackBit n) true i n = .nack ↔ i.val + 1 = n.val := by
  by_cases h1 : n.val = 1
  · simp [readAnswer, Machine.ackBit, h1]; omega
  · simp [readAnswer, Machine.ackBit, h1]

/-- A received byte that is answered NACK closes the frame to further bytes (43 R220). -/
theorem frameNext_rd (b : Byte) (k : Answer) :
    frameNext .reading (.rd b k) = some (if k = .nack then .readClosed else .reading) := by cases k <;> rfl

/-- DP2. -/
theorem CoreInv.takeByte {i : Fin 16} (h : CoreInv s) (b : Byte) (hg : dataStepReady s = true) (hi : i.val = s.bte.idx.val)
    (hlt : s.bte.idx.val < s.bte.n.val) (hdir : s.bte.dir = true) (hpc : s.bpd.pc = .dataR) (hopen : s.hid.rxClosed = false) :
    CoreInv (takeByte i b s) := by
  obtain ⟨hts, hm, hf, hr, hstop, hpend⟩ := h.dataStep hg
  obtain ⟨harmed, hdata, hn, hrw, -⟩ := h.dataPhase hts
  obtain ⟨-, hinit, -, hread, -, hsize⟩ := h.service hr
  obtain ⟨-, hlast⟩ := h.inited.1 hinit
  have hframe : frameAfter s.trace = some .reading := h.frameAfter_trace hm hf (by simp [frameExpected, hpc, hopen])
  have hack : s.ctl.ack = Machine.ackBit s.bte.n := by
    rw [h.ackBit (.inr hpc), Option.some.inj (hn.symm.trans (hsize (by rw [← hread, ← hrw, hdir])))]
  have hclosed : readAnswer s.ctl.ack s.ctl.last s.bte.idx s.bte.n = .nack ↔ i.succ = s.bte.n := by
    rw [hack, hlast, readAnswer_eq_nack_iff hlt, Fin.ext_iff, Fin.val_succ, hi]
  exact { h with
    addrPhase := by simp [hts]
    dataPhase := fun _ => ⟨harmed, hdata, hn, hrw, by simp [hopen, hclosed]⟩
    finish := by simp [hts]
    count := by simp [Fin.le_def, hi]; omega
    addrPending := by simp [hpend]
    framed := Framed.of_event hframe (takeByte_trace i b s) (frameNext_rd b _) (by split <;> simp) fun _ x => by
      simp [frameExpected, hpc, hopen]
      split <;> simp }

end Sys2Proof.Machine
end

section
/-! SUPPORT. The steps of the producers and of the scheduler (42) keep `CoreInv`. -/

namespace Sys2Proof.Machine

variable {s t : State}

/-! ### Producers -/

/-- PR1. -/
theorem CoreInv.accept (h : CoreInv s) (k : Nat) (r : TransferRequest) (hroom : hasRoom s = true) : CoreInv (accept k r s) := by
  rw [hasRoom_iff] at hroom
  exact { h with
    room := ⟨by simp; omega, h.room.2⟩
    paired := by
      obtain ⟨served, hacc, hans⟩ := h.paired
      exact ⟨served, by simp [hacc, inService], by simpa using hans⟩ }

/-- PR2. -/
theorem CoreInv.reject (h : CoreInv s) (k : Nat) (r : TransferRequest) : CoreInv (reject k r s) :=
  { h with
    paired := by
      obtain ⟨served, hacc, hans⟩ := h.paired
      exact ⟨served, by simp [hacc, inService], by simpa using hans⟩ }

theorem CoreInv.offer (h : CoreInv s) (k : Nat) (r : TransferRequest) : CoreInv (offer k r s) := by
  obtain ⟨-, hroom, he⟩ | ⟨-, -, he⟩ | he := offer_cases k r s <;> rw [he]
  · exact h.accept k r hroom
  · exact h.reject k r
  · exact h

/-- PR3. -/
theorem CoreInv.receive (h : CoreInv s) (k : Nat) : CoreInv (receive k s) := by
  obtain ⟨q, rest, -, hq, he⟩ | he := receive_cases k s <;> rw [he]
  · exact { h with
      room := ⟨h.room.1, by have := h.room.2; simp [hq] at this ⊢; omega⟩
      paired := by
        obtain ⟨served, hacc, hans⟩ := h.paired
        exact ⟨served, by simp [hacc, inService], by simpa [hq] using hans⟩ }
  · exact h

theorem CoreInv.receiveMessage (h : CoreInv s) (k : Nat) (q : TransferResponse) : CoreInv (receiveMessage k q s) := by
  unfold Machine.receiveMessage
  split
  · exact h.receive k
  · exact h

/-- IN1. -/
theorem CoreInv.configure (h : CoreInv s) (c : CfgRecord) (hts : s.ts.pc = .tsWait) : CoreInv (configure c s) :=
  { h with
    service := fun hr => absurd (.inl hts) hr
    inited := by simp }

/-! ### Scheduler -/

/-- TS1; `c` and `closed` are what BR1 writes and BW1 leaves. -/
theorem CoreInv.openCommand {r : TransferRequest} {rest : List TransferRequest} {c : Count} {closed : Bool} (h : CoreInv s)
    (hq : s.reqch = r :: rest) (hts : s.ts.pc = .tsWait) (hinit : s.bpd.inited = true) (hr : admitted r = true)
    (hread : isRead r = true → operandCount r.length = some c ∧ closed = false) :
    CoreInv { s with
      ts.req := r, reqch := rest, bte.n := 0, bte.idx := 0, ts.pc := .tsAddr
      bpd.rw := isRead r, bpd.a := r.deviceAddress, bpd.size := c, bpd.pc := .wSb, hid.rxClosed := closed
      ctl.start := true } := by
  obtain ⟨-, harmed, hfault, -, hsent, hacked, hpend, hmaster⟩ := h.rest (.inl hts)
  exact { h with
    rest := by simp [AtRest]
    service := fun _ => ⟨by simp, hinit, hr, rfl, rfl, fun hrd => (hread hrd).1⟩
    inited := ⟨h.inited.1, by simp [hinit]⟩
    addrPhase := fun _ => ⟨harmed, rfl, rfl, fun hrd => (hread hrd).2⟩
    dataPhase := by simp
    finish := by simp
    response := by simp
    count := le_refl _
    startBit := fun _ => ⟨rfl, hsent, hmaster⟩
    startSent := fun _ => .inl rfl
    addrPending := by simp [hpend]
    addrAcked := by simp [hacked]
    stopBit := fun _ => ⟨hfault, .inr ⟨rfl, rfl, rfl⟩⟩
    direction := by simp [writePhase, readPhase]
    ackBit := by simp
    room := ⟨by have := h.room.1; simp [hq] at this ⊢; omega, h.room.2⟩
    paired := by
      obtain ⟨served, hacc, hans⟩ := h.paired
      exact ⟨served, by simpa [inService, hts, hq] using hacc, hans⟩
    framed := Framed.of_trace_eq h.framed rfl id fun _ hf => ⟨hf, by simp [frameExpected, hsent]⟩ }

/-- TS1, unless it is refused. -/
theorem CoreInv.openRequest {r : TransferRequest} {rest : List TransferRequest} (h : CoreInv s)
    (hq : s.reqch = r :: rest) (hts : s.ts.pc = .tsWait) (hinit : s.bpd.inited = true) (hr : admitted r = true)
    (hok : (openRequest r rest s).refused = false) : CoreInv (openRequest r rest s) := by
  obtain he | ⟨-, -, hread, he⟩ | ⟨-, -, hread, c, hc, he⟩ := openRequest_cases r rest s
  · simp [he] at hok
  · rw [he]
    simpa only [hread] using h.openCommand (c := s.bpd.size) (closed := s.hid.rxClosed) hq hts hinit hr (by simp [hread])
  · rw [he]
    simpa only [hread] using h.openCommand (c := c) (closed := false) hq hts hinit hr (by simp [hc])

/-- TS2: the engine is armed for the direction of the open command, and no byte has been received yet. -/
theorem CoreInv.armData {c : Count} (h : CoreInv s) (hts : s.ts.pc = .tsAddr) (hdata : inDataState s = true)
    (hc : operandCount s.ts.req.length = some c) :
    CoreInv { s with
      bte := ⟨true, s.bpd.pc == .dataR, c, 0, if s.bpd.pc == .dataW then s.ts.req.payload else s.bte.buf⟩
      ts.pc := .tsData } := by
  have hr := not_atRest_iff.2 (.inl hts)
  obtain ⟨hstop, -⟩ := h.settled_of_inDataState hr hdata
  obtain ⟨-, hinit, -⟩ := h.service hr
  have hpos : c ≠ 0 := by
    rintro rfl
    obtain ⟨hle, -, hlen⟩ := operandCount_some.1 hc
    simp [← hlen] at hle
  have hdir : (s.bpd.pc == .dataR) = s.bpd.rw := by
    rcases (inDataState_iff s).1 hdata with hpc | hpc
    · simp [hpc, h.direction.1 (by simp [writePhase, hpc])]
    · simp [hpc, h.direction.2 (by simp [readPhase, hpc])]
  exact { h with
    rest := by simp [AtRest]
    service := fun _ => h.service hr
    inited := ⟨h.inited.1, by simp [hinit]⟩
    addrPhase := by simp
    dataPhase := fun _ => ⟨rfl, hdata, hc, hdir, fun hrw => by simp [h.rxClosed_false hts hrw, hpos.symm]⟩
    finish := by simp
    response := by simp
    count := Fin.zero_le _
    stopBit := by simp [hstop]
    paired := by
      obtain ⟨served, hacc, hans⟩ := h.paired
      exact ⟨served, by simpa [inService, hts] using hacc, hans⟩ }

/-- TS3, TS4, TS5: the outcome is known. -/
theorem CoreInv.latchOutcome {st : Status} (h : CoreInv s) (hts : s.ts.pc = .tsAddr ∨ s.ts.pc = .tsData)
    (hstop : s.ctl.stop = false)
    (hout : (st = .success ∧ operandCount s.ts.req.length = some s.bte.n ∧ s.bte.idx = s.bte.n) ∨
      (st = .error ∧ ((s.bte.n = 0 ∧ s.bte.idx = 0) ∨ operandCount s.ts.req.length = some s.bte.n))) :
    CoreInv (latchOutcome st s) := by
  have hr := not_atRest_iff.2 (hts.imp_right .inl)
  obtain ⟨-, hinit, -⟩ := h.service hr
  exact { h with
    rest := by simp [AtRest]
    service := fun _ => h.service hr
    inited := ⟨h.inited.1, by simp [hinit]⟩
    addrPhase := by simp
    dataPhase := by simp
    finish := fun _ => hout
    response := by simp
    stopBit := by simp [hstop]
    paired := by
      obtain ⟨served, hacc, hans⟩ := h.paired
      exact ⟨served, by rcases hts with hts | hts <;> simpa [inService, hts] using hacc, hans⟩ }

/-- TS3: nothing has been counted. -/
theorem CoreInv.addrFault (h : CoreInv s) (hts : s.ts.pc = .tsAddr) (hf : faultAny s = true) :
    CoreInv (Machine.latchOutcome .error s) := by
  obtain ⟨-, hn, hidx, -⟩ := h.addrPhase hts
  refine h.latchOutcome (.inl hts) ?_ (.inr ⟨rfl, .inl ⟨hn, hidx⟩⟩)
  refine Bool.eq_false_iff.2 fun hstop => ?_
  obtain ⟨hn, -⟩ := h.stopBit hstop
  simp [hf] at hn

theorem CoreInv.stop_false_of_data (h : CoreInv s) (hts : s.ts.pc = .tsData) : s.ctl.stop = false := by
  obtain ⟨-, hdata, -⟩ := h.dataPhase hts
  exact (h.settled_of_inDataState (not_atRest_iff.2 (.inr (.inl hts))) hdata).1

/-- TS4. -/
theorem CoreInv.dataDone (h : CoreInv s) (hts : s.ts.pc = .tsData) (hidx : s.bte.idx = s.bte.n) :
    CoreInv (Machine.latchOutcome .success s) := by
  obtain ⟨-, -, hn, -⟩ := h.dataPhase hts
  exact h.latchOutcome (.inr hts) (h.stop_false_of_data hts) (.inl ⟨rfl, hn, hidx⟩)

/-- TS5. -/
theorem CoreInv.dataFault (h : CoreInv s) (hts : s.ts.pc = .tsData) : CoreInv (Machine.latchOutcome .error s) := by
  obtain ⟨-, -, hn, -⟩ := h.dataPhase hts
  exact h.latchOutcome (.inr hts) (h.stop_false_of_data hts) (.inr ⟨rfl, .inr hn⟩)

/-- The response TS6 composes keeps the length laws (42 R186). -/
theorem CoreInv.answers_composeResponse (h : CoreInv s) (hts : s.ts.pc = .tsFinish) : Answers s.ts.req (composeResponse s) := by
  have hle : s.bte.idx.val ≤ s.bte.n.val := h.count
  obtain ⟨-, hn, hidx⟩ | ⟨hst, ⟨-, hidx⟩ | hn⟩ := h.finish hts
  · obtain ⟨-, -, hlen⟩ := operandCount_some.1 hn
    simp [Answers, composeResponse, hidx, hlen]
  · simp [Answers, composeResponse, hst, hidx]
  · obtain ⟨-, -, hlen⟩ := operandCount_some.1 hn
    simp [Answers, composeResponse, hst]
    omega

/-- TS6. -/
theorem CoreInv.finishTransaction (h : CoreInv s) (hts : s.ts.pc = .tsFinish) :
    CoreInv { s with
      bte.armed := false, ctl.stop := true, ctl.start := false, bpd.pc := .ready, sr := clearFlags s.sr
      hid.addrPending := false, ts.rsp := composeResponse s, ts.pc := .tsResp, draws := s.draws + 16 } := by
  obtain ⟨-, hinit, -⟩ := h.service (not_atRest_iff.2 (.inr (.inr hts)))
  exact { h with
    rest := by simp [clearFlags, NoFault]
    service := fun hr => absurd (.inr rfl) hr
    inited := ⟨h.inited.1, by simp [hinit]⟩
    addrPhase := by simp
    dataPhase := by simp
    finish := by simp
    response := fun _ => h.answers_composeResponse hts
    startBit := by simp
    startSent := by simp [clearFlags]
    addrPending := by simp
    addrAcked := by simp [clearFlags]
    stopBit := fun _ => ⟨by simp [clearFlags, NoFault], .inl (.inr rfl)⟩
    direction := by simp [writePhase, readPhase]
    ackBit := by simp
    paired := by
      obtain ⟨served, hacc, hans⟩ := h.paired
      exact ⟨served, by simpa [inService, hts] using hacc, hans⟩
    framed := by
      obtain ⟨f, hf, hopen, -⟩ := h.framed
      exact ⟨f, hf, hopen, by simp [frameExpected]⟩ }

/-- TS7: the request in service is answered. -/
theorem CoreInv.putResponse (h : CoreInv s) (hts : s.ts.pc = .tsResp) (hroom : s.rspch.length < s.par.rspCap) :
    CoreInv (putResponse s) :=
  { h with
    rest := fun _ => h.rest (.inr hts)
    service := fun hr => absurd (.inl rfl) hr
    inited := ⟨h.inited.1, fun _ => rfl⟩
    addrPhase := by simp
    dataPhase := by simp
    finish := by simp
    response := by simp
    stopBit := fun hs => ⟨(h.stopBit hs).1, .inl (.inl rfl)⟩
    room := ⟨h.room.1, by simp; omega⟩
    paired := by
      obtain ⟨served, hacc, hans⟩ := h.paired
      refine ⟨served ++ [s.ts.req], by simpa [inService, hts] using hacc, ?_⟩
      simpa using List.rel_append hans (.cons (h.response hts) .nil) }

end Sys2Proof.Machine
end

section
/-! PROOFS. Who writes what (10_state Table 10-1): the effects that write an item are listed, every other effect leaves it as it was. -/

namespace Sys2Proof.Machine

/-- Settles O34: what the effects that move a sequencer say of where it stood before. -/
theorem sequencerEdges : Obligations.SequencerEdges := by
  intro i s t he
  cases exec_effect i s t he with
  | bw1 _ hpc | br1 _ _ _ hpc | bw2 hpc | br2 hpc | bw3 hpc | br3 hpc | waWrite _ hpc | waRead _ hpc | bw4 hpc | br4 hpc
  | br5 hpc | br6 hpc => simp [hpc]
  | dequeueWrite _ _ _ hpc hts | dequeueRead _ _ _ _ hpc hts => simp [hpc, hts]
  | addrDone _ hts | addrFault hts | dataDone hts | dataFault hts | finish hts | put hts => simp [hts]
  | _ => simp

/-- Settles O35: the effects of the named writers are one bit each (ET1 and TS6 two); only INIT writes the configuration. -/
theorem controlBitWriters : Obligations.ControlBitWriters := by
  intro i s t he
  cases exec_effect i s t he with
  | dequeueWrite | dequeueRead | bw1 | br1 | start | endTransaction | finish | stop => simp
  | _ => simp +contextual

/-- Settles O36: ENV and DP1 raise the flags, TS6 clears them, and the steps of the BPD write the bits of the address phase. -/
theorem flagWriters : Obligations.FlagWriters := by
  intro i s t he
  cases exec_effect i s t he with
  | addrNack | busError | arbLost => simp +contextual [raiseFault, setFaultFlag]
  | wbyte answer => cases answer <;> simp +contextual
  | finish => simp +contextual [clearFlags]
  | _ => simp +contextual

/-- Settles O37: TS1 and PR3 take the front of a channel, EV4 emits a stop only as master, each other writer writes its own items. -/
theorem dataItemWriters : Obligations.DataItemWriters := by
  intro i s t he
  cases exec_effect i s t he with
  | dequeueWrite _ _ hq | dequeueRead _ _ _ hq => simp [hq]
  | takeSuccess _ _ _ _ _ hq | takeError _ _ _ _ _ hq | recv _ _ _ hq => simp [hq]
  | stop => cases hm : s.sr.master <;> simp [hm]
  | _ => simp

end Sys2Proof.Machine
end

section
/-! SUPPORT. Every instruction an agent may issue keeps `CoreInv`, and no instruction writes the moves to come. -/

namespace Sys2Proof.Machine

variable {s t : State}

/-- What holds before a guarded step and after its effect holds after it. -/
theorem stepWhen_keeps {P : State → Prop} {pre : Bool} {eff : State} (hst : stepWhen pre eff s = .next t) (h : P s)
    (heff : pre = true → P eff) : P t := by
  obtain ⟨hp, rfl⟩ | ⟨-, rfl⟩ := stepWhen_next.1 hst
  · exact heff hp
  · exact h

/-- BW2 to BW4. -/
theorem CoreInv.beginWrite {st : BeginWriteStep} (h : CoreInv s) (hst : st.isFirst = false)
    (he : execCmdBeginWrite st s = .next t) : CoreInv t := by
  cases st with
  | bw1 a => simp [BeginWriteStep.isFirst] at hst
  | bw2 =>
    refine stepWhen_keeps he h fun hp => ?_
    simp only [Bool.and_eq_true, beq_iff_eq, Bool.not_eq_true', bpdGuard_iff] at hp
    obtain ⟨⟨⟨hpc, -⟩, hsent⟩, hts, -⟩ := hp
    exact h.sendAddress hts hpc hsent
  | bw3 =>
    refine stepWhen_keeps he h fun hp => ?_
    simp only [Bool.and_eq_true, beq_iff_eq, Bool.not_eq_true', bpdGuard_iff] at hp
    obtain ⟨⟨hpc, hrw⟩, hts, -⟩ := hp
    exact h.writeAddressByte hts hpc (.inl ⟨rfl, hrw⟩)
  | bw4 =>
    refine stepWhen_keeps he h fun hp => ?_
    simp only [Bool.and_eq_true, beq_iff_eq, bpdGuard_iff] at hp
    obtain ⟨⟨⟨hpc, hacked⟩, -⟩, hts, -⟩ := hp
    exact h.openWrite hts hpc hacked

/-- BR2 to BR6. -/
theorem CoreInv.beginRead {st : BeginReadStep} (h : CoreInv s) (hst : st.isFirst = false)
    (he : execCmdBeginRead st s = .next t) : CoreInv t := by
  cases st with
  | br1 a n => simp [BeginReadStep.isFirst] at hst
  | br2 =>
    refine stepWhen_keeps he h fun hp => ?_
    simp only [Bool.and_eq_true, beq_iff_eq, bpdGuard_iff] at hp
    obtain ⟨⟨⟨hpc, -⟩, hsent⟩, hts, -⟩ := hp
    exact h.sendAddress hts hpc hsent
  | br3 =>
    refine stepWhen_keeps he h fun hp => ?_
    simp only [Bool.and_eq_true, beq_iff_eq, bpdGuard_iff] at hp
    obtain ⟨⟨hpc, hrw⟩, hts, -⟩ := hp
    exact h.writeAddressByte hts hpc (.inr ⟨rfl, hrw⟩)
  | br4 =>
    refine stepWhen_keeps he h fun hp => ?_
    simp only [Bool.and_eq_true, beq_iff_eq, bpdGuard_iff] at hp
    obtain ⟨⟨hpc, hacked⟩, hts, -⟩ := hp
    exact h.addressAcknowledged hts hpc hacked
  | br5 =>
    refine stepWhen_keeps he h fun hp => ?_
    simp only [Bool.and_eq_true, beq_iff_eq, bpdGuard_iff] at hp
    obtain ⟨hpc, hts, -⟩ := hp
    exact h.configureAck hts hpc
  | br6 =>
    refine stepWhen_keeps he h fun hp => ?_
    simp only [Bool.and_eq_true, beq_iff_eq, bpdGuard_iff] at hp
    obtain ⟨⟨hpc, -⟩, hts, -⟩ := hp
    exact h.openRead hts hpc

/-- Every instruction an agent may issue keeps `CoreInv` unless it is refused. -/
theorem CoreInv.exec {i : Instr} (h : CoreInv s) (hi : innerStep i = false) (he : exec i s = .next t)
    (hok : t.refused = false) : CoreInv t := by
  cases i with
  | reqWrite k a n p => obtain rfl := Host.Outcome.next.inj he; exact h.offer k _
  | reqRead k a n p => obtain rfl := Host.Outcome.next.inj he; exact h.offer k _
  | rspSuccess k n b => obtain rfl := Host.Outcome.next.inj he; exact h.receiveMessage k _
  | rspError k n b => obtain rfl := Host.Outcome.next.inj he; exact h.receiveMessage k _
  | cmdInit c =>
    obtain rfl | rfl | ⟨-, -, -, hts, rfl⟩ := execCmdInit_cases he
    · exact h
    · simp at hok
    · exact h.configure c hts
  | cmdBeginWrite st => exact h.beginWrite hi he
  | cmdBeginRead st => exact h.beginRead hi he
  | waWrite a =>
    refine stepWhen_keeps he h fun hp => ?_
    simp only [Bool.and_eq_true, beq_iff_eq, Bool.not_eq_true', bpdGuard_iff] at hp
    obtain ⟨⟨⟨hpc, hrw⟩, hts, -⟩, -⟩ := hp
    exact h.writeAddressByte hts hpc (.inl ⟨rfl, hrw⟩)
  | waRead a =>
    refine stepWhen_keeps he h fun hp => ?_
    simp only [Bool.and_eq_true, beq_iff_eq, bpdGuard_iff] at hp
    obtain ⟨⟨⟨hpc, hrw⟩, hts, -⟩, -⟩ := hp
    exact h.writeAddressByte hts hpc (.inr ⟨rfl, hrw⟩)
  | chEnq k r => exact stepWhen_keeps he h fun hp => h.accept k r (Bool.and_eq_true_iff.1 hp).2
  | chEnqReject k r => exact stepWhen_keeps he h fun _ => h.reject k r
  | chRecv k => obtain rfl := Host.Outcome.next.inj he; exact h.receive k
  | tsDequeue =>
    obtain rfl | ⟨r, rest, hq, hts, hinit, ⟨-, rfl⟩ | ⟨hr, rfl⟩⟩ := execTsDequeue_cases he
    · exact h
    · simp at hok
    · exact h.openRequest hq hts hinit hr hok
  | tsAddrDone =>
    obtain ⟨hp, rfl⟩ | ⟨-, rfl⟩ := stepWhen_next.1 he
    · simp only [Bool.and_eq_true, beq_iff_eq] at hp
      obtain ⟨⟨hts, -⟩, -⟩ := hp
      obtain hr | ⟨-, -, hdata, c, hc, hr⟩ := armRequest_cases s
      · simp [hr] at hok
      · exact hr ▸ h.armData hts hdata hc
    · exact h
  | tsAddrFault =>
    refine stepWhen_keeps he h fun hp => ?_
    simp only [Bool.and_eq_true, beq_iff_eq] at hp
    obtain ⟨⟨hts, hf⟩, -⟩ := hp
    exact h.addrFault hts hf
  | tsDataDone =>
    refine stepWhen_keeps he h fun hp => ?_
    simp only [Bool.and_eq_true, beq_iff_eq] at hp
    obtain ⟨⟨hts, hidx⟩, -⟩ := hp
    exact h.dataDone hts hidx
  | tsDataFault => exact stepWhen_keeps he h fun hp => h.dataFault (beq_iff_eq.1 (Bool.and_eq_true_iff.1 hp).1)
  | tsFinish =>
    obtain ⟨hp, rfl⟩ | ⟨-, rfl⟩ := stepWhen_next.1 he
    · obtain hr | ⟨-, -, hr⟩ := finishTransaction_cases s
      · simp [hr] at hok
      · exact hr ▸ h.finishTransaction (beq_iff_eq.1 hp)
    · exact h
  | tsPut =>
    refine stepWhen_keeps he h fun hp => ?_
    simp only [Bool.and_eq_true, beq_iff_eq, decide_eq_true_eq] at hp
    obtain ⟨hts, hroom⟩ := hp
    exact h.putResponse hts hroom
  | dataWbyte k =>
    obtain rfl | ⟨i, hidx, hlt, hg, hdir, hpc, rfl⟩ := execDataWbyte_cases he
    · exact h
    · exact h.sendByte k hg hidx hlt hdir hpc
  | dataRbyte b =>
    obtain rfl | ⟨i, hidx, hlt, hg, hdir, hpc, hopen, rfl⟩ := execDataRbyte_cases he
    · exact h
    · exact h.takeByte b hg hidx hlt hdir hpc hopen
  | envStart =>
    refine stepWhen_keeps he h fun hp => ?_
    simp only [Bool.and_eq_true, Bool.not_eq_true'] at hp
    obtain ⟨⟨hstart, hstop⟩, -⟩ := hp
    exact h.startGoesOut hstart hstop
  | envAddrAck => exact stepWhen_keeps he h h.addressAcked
  | envAddrNack => exact stepWhen_keeps he h h.addressRefused
  | envStop => exact stepWhen_keeps he h fun _ => h.completeStop
  | envBusError => exact stepWhen_keeps he h (h.faultStrikes .busError)
  | envArbLost => exact stepWhen_keeps he h (h.faultStrikes .arbitrationLost)
  | cmdEnd | bteArm n | bteDisarm => simp [innerStep] at hi

/-- Bytes that are no instruction keep `CoreInv` unless they are refused. -/
theorem CoreInv.undecoded (h : CoreInv s) (e : Stimulus) (hok : (undecoded e s).refused = false) : CoreInv (undecoded e s) := by
  obtain he | ⟨k, r, he⟩ := undecoded_cases e s
  · simp [he] at hok
  · exact he ▸ h.offer k r

/-! ### The moves to come, and the launch -/

/-- No instruction writes the moves to come (A1). -/
theorem exec_agenda {i : Instr} (he : exec i s = .next t) : t.agenda = s.agenda := by
  obtain ⟨-, hagenda, -⟩ := dataItemWriters i s t he
  exact hagenda

theorem offer_agenda (k : Nat) (r : TransferRequest) (s : State) : (offer k r s).agenda = s.agenda := by
  obtain ⟨-, -, he⟩ | ⟨-, -, he⟩ | he := offer_cases k r s <;> simp [he]

theorem undecoded_agenda (e : Stimulus) (s : State) : (undecoded e s).agenda = s.agenda := by
  obtain he | ⟨k, r, he⟩ := undecoded_cases e s <;> simp [he, offer_agenda]

/-- The agenda is read by nothing but the fetch. -/
theorem CoreInv.withAgenda (h : CoreInv s) (a : List Stimulus) : CoreInv { s with agenda := a } := { h with }

/-- An instruction of an agenda that respects ownership is no bare inner command. -/
theorem innerStep_of_owned {e : Stimulus} {i : Instr} (ho : Owned e = true) (hd : decode e = .ok i) : innerStep i = false := by
  simpa [Owned, hd] using ho

/-- 70 R283: the invariant holds at every launch. -/
theorem launch_inv (p : Params) (agenda : List Stimulus) (ho : ∀ e ∈ agenda, Owned e = true) :
    Inv { State.reset with par := p, agenda := agenda } := by
  refine ⟨ho, fun _ => ?_⟩
  constructor
  case framed => exact ⟨.free, rfl, by simp [State.reset], by simp [State.reset]⟩
  case paired => exact ⟨[], rfl, .nil⟩
  case ackBit | direction => simp [State.reset, readPhase, writePhase]
  all_goals simp [State.reset, AtRest, NoFault]

end Sys2Proof.Machine
end

section
/-! PROOFS. The invariant over every step and every reachable state (10_state R52). -/

namespace Sys2Proof.Machine

/-- Settles O39: an owned instruction keeps `CoreInv` unless it is refused, and the agenda loses its front. -/
theorem stepKeepsInvariant : Obligations.StepKeepsInvariant := by
  intro s t ⟨howned, hcore⟩ hs
  obtain ⟨hrefused, ⟨-, rfl⟩ | ⟨e, rest, ha, hcase⟩⟩ := step_cases hs
  · exact ⟨howned, hcore⟩
  have h := (hcore hrefused).withAgenda rest
  rw [ha] at howned
  have hrest : ∀ x ∈ rest, Owned x = true := fun x hx => howned x (.tail _ hx)
  obtain ⟨i, hd, he⟩ | ⟨-, rfl⟩ := hcase
  · rw [Inv, exec_agenda he]
    exact ⟨hrest, h.exec (innerStep_of_owned (howned e (.head _)) hd) he⟩
  · rw [Inv, undecoded_agenda]
    exact ⟨hrest, h.undecoded e⟩

theorem Reachable.inv {s : State} (h : Reachable s) : Inv s := h.induct launch_inv stepKeepsInvariant

theorem Reachable.coreInv {s : State} (h : Reachable s) (hr : s.refused = false) : CoreInv s := h.inv.2 hr

/-- Settles O40: each clause of R52 is read off `CoreInv`. -/
theorem reachableInvariants : Obligations.ReachableInvariants := by
  intro s hreach hok
  have h := hreach.coreInv hok
  refine ⟨fun hpc => not_atRest_iff.1 (h.not_atRest hpc), ?armed, ⟨h.count, Nat.le_of_lt_succ s.bte.n.isLt⟩, h.room,
    fun hs => (h.startBit hs).1, fun hs => (h.startSent hs).imp_right .inl,
    fun hp => (h.addrPending hp).1.imp_right .inl, ?noFault, ?service⟩
  case armed =>
    intro harmed
    have hr : ¬AtRest s := fun hr => by simp [h.rest hr] at harmed
    have ha : s.ts.pc ≠ .tsAddr := fun hts => by simp [h.addrPhase hts] at harmed
    exact (not_atRest_iff.1 hr).resolve_left ha
  case noFault =>
    intro hts
    obtain ⟨-, -, hf, -⟩ := h.rest hts.symm
    exact (faultAny_eq_false_iff s).1 hf
  case service =>
    obtain ⟨served, hacc, hans⟩ := h.paired
    refine ⟨served, inService s, hacc, hans, ?_⟩
    by_cases hts : s.ts.pc = .tsWait
    · simp [inService_of_wait hts, hts]
    · simp [inService_of_ne hts, hts]

end Sys2Proof.Machine
end

section
/-! SUPPORT. Paths: runs of moves with what they put on the wire, and how the machine and the bench with the EEPROM run them. -/

namespace Sys2Proof.Machine

/-- ENV's part in a wire event is what this target gives (95 section 5, F-1, F-3, F-4). -/
def Eeprom.Gives (e : Eeprom) : WireEvent → Prop
  | .start => True
  | .addr wa .ack => e.answers wa = true
  | .addr wa .nack => e.answers wa = false
  | .wr _ answer => answer = .ack
  | .rd b _ => b = Memory.read e.mem e.ptr.toNat
  | .stop => True

/-- The same of a sequence of wire events, each of which the target sees before the next. -/
def Eeprom.GivesAll : Eeprom → List WireEvent → Prop
  | _, [] => True
  | e, w :: ws => e.Gives w ∧ (e.onEvent w).GivesAll ws

/-- `Path moves s wire t`: the agenda of `s` begins with `moves`; run in order they lead to `t` and put `wire` on the wire. A move either
emits nothing and asks nothing of the target, or emits one event, and then all it asks of the target is ENV's part in that event. -/
inductive Path : List Stimulus → State → List WireEvent → State → Prop
  | done (s : State) : Path [] s [] s
  | quiet {i : Instr} {rest moves : List Stimulus} {s u t : State} {wire : List WireEvent}
      (running : s.refused = false) (front : s.agenda = move i :: rest)
      (free : ∀ e : Eeprom, e.allows { s with agenda := rest } i = true)
      (runs : exec i { s with agenda := rest } = .next u) (trace : u.trace = s.trace) (tail : Path moves u wire t) :
      Path (move i :: moves) s wire t
  | event {i : Instr} {rest moves : List Stimulus} {s u t : State} {w : WireEvent} {wire : List WireEvent}
      (running : s.refused = false) (front : s.agenda = move i :: rest)
      (given : ∀ e : Eeprom, e.Gives w → e.allows { s with agenda := rest } i = true)
      (runs : exec i { s with agenda := rest } = .next u) (trace : u.trace = s.trace ++ [w]) (tail : Path moves u wire t) :
      Path (move i :: moves) s (w :: wire) t

namespace Path

variable {m m' : List Stimulus} {s t u : State} {w w' : List WireEvent}

/-- Paths compose. -/
theorem append (h : Path m s w t) (h' : Path m' t w' u) : Path (m ++ m') s (w ++ w') u := by
  induction h with
  | done => exact h'
  | quiet hr ha hfree he htr _ ih => exact .quiet hr ha hfree he htr (ih h')
  | event hr ha hgiven he htr _ ih => exact .event hr ha hgiven he htr (ih h')

/-- The wire events of a path are what it adds to the trace. -/
theorem trace_eq (h : Path m s w t) : t.trace = s.trace ++ w := by
  induction h with
  | done => simp
  | quiet _ _ _ _ htr _ ih => rw [ih, htr]
  | event _ _ _ _ htr _ ih => simp [ih, htr]

/-- The moves of a path are what it takes from the agenda. -/
theorem agenda_eq (h : Path m s w t) : s.agenda = m ++ t.agenda := by
  induction h with
  | done => rfl
  | quiet _ ha _ he _ _ ih | event _ ha _ he _ _ ih =>
    have hu := exec_agenda he
    rw [ha, List.cons_append, ← ih, hu]

/-- What is left of the agenda after a path. -/
theorem agenda_rest {rest : List Stimulus} (h : Path m s w t) (ha : s.agenda = m ++ rest) : t.agenda = rest :=
  (List.append_cancel_left (ha.symm.trans h.agenda_eq)).symm

/-- The machine runs a path. -/
theorem run (h : Path m s w t) : Sys2Proof.core.run m.length s = .next t := by
  induction h with
  | done => rfl
  | quiet hr ha _ he _ _ ih | event hr ha _ he _ _ ih => exact (run_succ ((step_move hr ha).trans he)).trans ih

end Path

/-- One move of the bench: the fixture allows it and the target sees the new wire events. -/
theorem Bench.step_move {i : Instr} {rest : List Stimulus} {s u : State} {e : Eeprom} {w : List WireEvent}
    (hr : s.refused = false) (ha : s.agenda = move i :: rest) (hallows : e.allows { s with agenda := rest } i = true)
    (he : exec i { s with agenda := rest } = .next u) (htr : u.trace = s.trace ++ w) :
    Bench.step ⟨s, e⟩ = some ⟨u, w.foldl Eeprom.onEvent e⟩ := by
  have hs : Machine.step s = .next u := (Machine.step_move hr ha).trans he
  simp [Bench.step, fetch, ha, decode, hallows, hs, htr]

/-- The bench runs a path whose wire events have the target's part as the fixture gives it; the target sees them all. -/
theorem Path.bench_run {m : List Stimulus} {s t : State} {w : List WireEvent} (h : Path m s w t) {e : Eeprom} (hw : e.GivesAll w) :
    Bench.run m.length ⟨s, e⟩ = some ⟨t, w.foldl Eeprom.onEvent e⟩ := by
  induction h generalizing e with
  | done => rfl
  | quiet hr ha hfree he htr _ ih =>
    have hstep := Bench.step_move (w := []) hr ha (hfree e) he (by simpa using htr)
    simpa [Bench.run, hstep] using ih hw
  | event hr ha hgiven he htr _ ih =>
    obtain ⟨hgive, hrest⟩ := hw
    have hstep := Bench.step_move hr ha (hgiven e hgive) he htr
    simpa [Bench.run, hstep] using ih hrest

end Sys2Proof.Machine
end

section
/-! SUPPORT. The steps of a request that meets no fault, each with its effect where its `pre` is true (42 R190, R191). -/

namespace Sys2Proof.Machine

variable {k : Nat} {r : TransferRequest} {s : State}

/-- A guarded step whose `pre` is true takes its effect. -/
theorem stepWhen_of {pre : Bool} {eff s : State} (h : pre = true) : stepWhen pre eff s = .next eff :=
  stepWhen_next.2 (.inl ⟨h, rfl⟩)

/-- The length of an admitted request is a count (42 R175). -/
theorem admitted_count (h : admitted r = true) : ∃ c, operandCount r.length = some c :=
  Option.isSome_iff_exists.1 (Bool.and_eq_true_iff.1 h).2

/-- TS1 opens the command of an admitted request, whatever its kind (42 R177). -/
theorem execTsDequeue_opens {c : Count} (hq : s.reqch = [r]) (hts : s.ts.pc = .tsWait) (hpc : s.bpd.pc = .ready)
    (hi : s.bpd.inited = true) (hadm : admitted r = true) (hc : operandCount r.length = some c) :
    execTsDequeue s = .next { s with
      ts.req := r, reqch := [], bte.n := 0, bte.idx := 0, ts.pc := .tsAddr
      bpd.rw := isRead r, bpd.a := r.deviceAddress, bpd.size := if isRead r then c else s.bpd.size, bpd.pc := .wSb
      hid.rxClosed := !isRead r && s.hid.rxClosed, ctl.start := true } := by
  cases hr : isRead r with
  | false => simp [execTsDequeue, stepWhen, openRequest, beginWriteStart, orRefuse, *]
  | true => simp [execTsDequeue, stepWhen, openRequest, beginReadStart, orRefuse, *]

/-- BW2 and BR2 see the start condition (40 R122, R123). -/
theorem exec_seesStart {read : Bool} (hpc : s.bpd.pc = .wSb) (hrw : s.bpd.rw = read) (hsent : s.sr.startSent = true)
    (hg : GuardG s) :
    exec (if read then .cmdBeginRead .br2 else .cmdBeginWrite .bw2) s = .next { s with bpd.pc := .sendAddr } := by
  have hg' := (bpdGuard_iff s).2 hg
  cases read with
  | false => exact stepWhen_of (by simp only [hpc, hrw, hsent, hg']; rfl)
  | true => exact stepWhen_of (by simp only [hpc, hrw, hsent, hg']; rfl)

/-- BW3 and BR3 write the address byte (40 R122, R123). -/
theorem exec_writesAddress {read : Bool} (hpc : s.bpd.pc = .sendAddr) (hrw : s.bpd.rw = read) (hg : GuardG s) :
    exec (if read then .cmdBeginRead .br3 else .cmdBeginWrite .bw3) s =
      .next (writeAddressByte (if read then .wAddrR else .wAmW) s) := by
  have hg' := (bpdGuard_iff s).2 hg
  cases read with
  | false => exact stepWhen_of (by simp only [hpc, hrw, hg']; rfl)
  | true => exact stepWhen_of (by simp only [hpc, hrw, hg']; rfl)

/-- TS2 arms the engine (42 R178). -/
theorem execTsAddrDone_arms {c : Count} (hts : s.ts.pc = .tsAddr) (hdata : inDataState s = true) (hf : NoFault s)
    (hen : s.ctl.bteEn = true) (harmed : s.bte.armed = false) (hc : operandCount s.ts.req.length = some c) :
    execTsAddrDone s = .next { s with
      bte := ⟨true, s.bpd.pc == .dataR, c, 0, if s.bpd.pc == .dataW then s.ts.req.payload else s.bte.buf⟩
      ts.pc := .tsData } := by
  have hpre : (s.ts.pc == .tsAddr && inDataState s && !faultAny s) = true := by
    rw [hts, hdata, (faultAny_eq_false_iff s).2 hf]; rfl
  rw [execTsAddrDone, stepWhen_of hpre, armEngine_some.2 ⟨hen, harmed, hdata, c, hc, rfl⟩]
  rfl

/-- TS6 ends the transaction (42 R182). -/
theorem execTsFinish_ends (hts : s.ts.pc = .tsFinish) (hi : s.bpd.inited = true) (hpc : s.bpd.pc ≠ .ready) :
    execTsFinish s = .next { s with
      bte.armed := false, ctl.stop := true, ctl.start := false, bpd.pc := .ready, sr := clearFlags s.sr
      hid.addrPending := false, ts.rsp := composeResponse s, ts.pc := .tsResp, draws := s.draws + 16 } := by
  have hend := endTransaction_some (s := disarmEngine s).2 ⟨hi, hpc, rfl⟩
  rw [execTsFinish, stepWhen_of (by rw [hts]; rfl), finishTransaction, hend]
  rfl

/-- EV4 as master puts the stop condition on the wire (43 R215). -/
theorem execEnvStop_master (hstop : s.ctl.stop = true) (hm : s.sr.master = true) :
    execEnvStop s = .next { emit .stop s with sr.master := false, ctl.stop := false, hid.addrPending := false } := by
  rw [execEnvStop, stepWhen_of hstop, completeStop, hm]
  rfl

/-- PR3 takes the one response in the channel (42 R174). -/
theorem execChRecv_front {q : TransferResponse} (hk : k < s.par.nProducers) (hq : s.rspch = [q]) :
    execChRecv k s = .next (tell (.received k q) { s with rspch := [] }) := by
  rw [execChRecv, receive, if_pos ((producer_iff k s).2 hk), hq]

end Sys2Proof.Machine
end

section
/-! SUPPORT. A request that meets no fault (42 R190, R191): what holds while it is served, and its three parts, which are the address
phase, the data phase and the moves that end it. -/

namespace Sys2Proof.Machine

variable {k : Nat} {r : TransferRequest} {rest : List Stimulus} {s : State}

/-- What holds from the start condition to TS6 while the request `r` is served with no fault in a block that producer `k` can use. -/
structure Serving (k : Nat) (r : TransferRequest) (s : State) : Prop where
  req : s.ts.req = r
  dir : s.bpd.rw = isRead r
  reqch : s.reqch = []
  rspch : s.rspch = []
  start : s.ctl.start = false
  stop : s.ctl.stop = false
  startSent : s.sr.startSent = false
  master : s.sr.master = true
  noFault : NoFault s
  inited : s.bpd.inited = true
  bteEn : s.ctl.bteEn = true
  last : s.ctl.last = true
  notRefused : s.refused = false
  reqCap : 1 ≤ s.par.reqCap
  rspCap : 1 ≤ s.par.rspCap
  producer : k < s.par.nProducers

/-- The address byte of `r` is pending (after BW3, BR3). -/
structure AddressPending (k : Nat) (r : TransferRequest) (s : State) : Prop extends Serving k r s where
  tsPc : s.ts.pc = .tsAddr
  bpdPc : s.bpd.pc = if isRead r then .wAddrR else .wAmW
  dr : s.dr = wireByte r.deviceAddress (isRead r)
  pending : s.hid.addrPending = true
  addrAcked : s.sr.addrAcked = false
  size : isRead r = true → operandCount r.length = some s.bpd.size
  rxOpen : isRead r = true → s.hid.rxClosed = false
  armed : s.bte.armed = false
  idx : s.bte.idx = 0

/-- The data phase of `r` is open (after TS2). -/
structure DataOpen (k : Nat) (r : TransferRequest) (s : State) : Prop extends Serving k r s where
  tsPc : s.ts.pc = .tsData
  bpdPc : s.bpd.pc = if isRead r then .dataR else .dataW
  pending : s.hid.addrPending = false
  addrAcked : s.sr.addrAcked = false
  armed : s.bte.armed = true
  engineDir : s.bte.dir = isRead r
  count : operandCount r.length = some s.bte.n

/-! ### The address phase -/

/-- The moves from the address byte of a Write to its data phase. -/
abbrev writeDataMoves : List Stimulus := [move .envAddrAck, move (.cmdBeginWrite .bw4), move .tsAddrDone]

/-- The moves from the address byte of a Read to its data phase. -/
abbrev readDataMoves : List Stimulus :=
  [move .envAddrAck, move (.cmdBeginRead .br4), move (.cmdBeginRead .br5), move (.cmdBeginRead .br6), move .tsAddrDone]

/-- The moves up to the address byte differ by the kind of the request in the steps of the BPD only. -/
theorem openMoves_eq : openMoves k r = [move (.chEnq k r), move .tsDequeue, move .envStart,
    move (if isRead r then .cmdBeginRead .br2 else .cmdBeginWrite .bw2),
    move (if isRead r then .cmdBeginRead .br3 else .cmdBeginWrite .bw3)] := by
  rw [openMoves]
  split <;> rfl

/-- The fixture allows every step of the BPD. -/
theorem allows_ite {p : Prop} [Decidable p] {st : BeginReadStep} {st' : BeginWriteStep} (e : Eeprom) (s : State) :
    e.allows s (if p then .cmdBeginRead st else .cmdBeginWrite st') = true := by
  split <;> rfl

/-- A ready block takes an admitted request and brings its address byte up to the wire (42 R172, R177, 43 R211). -/
theorem ReadyFor.openPath (h : ReadyFor k s) (hadm : admitted r = true) (ha : s.agenda = openMoves k r ++ rest) :
    ∃ t, Path (openMoves k r) s [.start] t ∧ AddressPending k r t ∧ t.told = s.told ++ [.accepted k r] ∧
      t.ctl.ack = s.ctl.ack := by
  obtain ⟨⟨hreqch, hrspch, hts, hpc, hstart, hstop, harmed, hflags, hpend⟩, hi, hen, hlast, hok, hreqCap, hrspCap, hk⟩ := h
  obtain ⟨c, hc⟩ := admitted_count hadm
  have hf : NoFault s := by simp [NoFault, hflags]
  have hacked : s.sr.addrAcked = false := by simp [hflags]
  rw [openMoves_eq] at ha ⊢
  refine ⟨_, .quiet hok ha (fun _ => rfl) (stepWhen_of ?enq) rfl <|
      .quiet hok rfl (fun _ => rfl) (execTsDequeue_opens (congrArg (· ++ [r]) hreqch) hts hpc hi hadm hc) rfl <|
      .event hok rfl (fun _ _ => rfl) (stepWhen_of ?start) rfl <|
      .quiet hok rfl (fun e => allows_ite e _) (exec_seesStart rfl rfl rfl ⟨rfl, fun _ => hf⟩) rfl <|
      .quiet hok rfl (fun e => allows_ite e _) (exec_writesAddress rfl rfl ⟨rfl, fun _ => hf⟩) rfl <| .done _,
    ⟨⟨rfl, rfl, rfl, hrspch, rfl, hstop, rfl, rfl, hf, hi, hen, hlast, hok, hreqCap, hrspCap, hk⟩,
      rfl, rfl, rfl, rfl, hacked, ?size, ?rxOpen, harmed, rfl⟩, rfl, rfl⟩
  case enq => simp [hreqch, hk]; omega
  case start => simp [hstop, NoFault, hflags]
  case size => exact fun hr => hc.trans (congrArg some (if_pos hr).symm)
  case rxOpen => exact fun hr => by simp [hr]

/-- The target acknowledges its address and the data phase of a Write opens (40 R122, 42 R178). -/
theorem AddressPending.openWrite (h : AddressPending k r s) (hr : isRead r = false) (hadm : admitted r = true)
    (ha : s.agenda = writeDataMoves ++ rest) :
    ∃ t, Path writeDataMoves s [.addr (wireByte r.deviceAddress false) .ack] t ∧ DataOpen k r t ∧ t.bte.idx = 0 ∧
      t.bte.buf = r.payload ∧ t.told = s.told ∧ t.ctl = s.ctl := by
  obtain ⟨⟨hreq, hrw, hreqch, hrspch, hstart, hstop, hsent, hm, hf, hi, hen, hlast, hok, hreqCap, hrspCap, hk⟩,
    hts, hpc, hdr, hpend, hacked, -, -, harmed, -⟩ := h
  obtain ⟨c, hc⟩ := admitted_count hadm
  rw [hr] at hpc hdr
  refine ⟨_, .event hok ha (fun _ he => ?given) (stepWhen_of ((addressGoesOut_iff _).2 ⟨hpend, hm, hstop, hf⟩)) ?wire <|
      .quiet hok rfl (fun _ => rfl) (stepWhen_of ?bw4) rfl <|
      .quiet hok rfl (fun _ => rfl) (execTsAddrDone_arms hts (by simp) hf hen harmed (hreq ▸ hc)) rfl <| .done _,
    ⟨⟨hreq, hrw, hreqch, hrspch, hstart, hstop, hsent, hm, hf, hi, hen, hlast, hok, hreqCap, hrspCap, hk⟩,
      rfl, by simp [hr], rfl, rfl, rfl, hr.symm, hc⟩, rfl, ?payload, rfl, rfl⟩
  case given => simpa [Eeprom.allows, Eeprom.Gives, hdr] using he
  case wire => simp [hdr]
  case payload => simp [hreq]
  case bw4 =>
    rw [NoFault] at hf
    simp [GuardG, NoFault, hpc, hm, hts, hf]

/-- The target acknowledges its address and the data phase of a Read opens, its acknowledge bit written (40 R123, 42 R178). -/
theorem AddressPending.openRead (h : AddressPending k r s) (hr : isRead r = true) (ha : s.agenda = readDataMoves ++ rest) :
    ∃ t, Path readDataMoves s [.addr (wireByte r.deviceAddress true) .ack] t ∧ DataOpen k r t ∧ t.bte.idx = 0 ∧
      t.hid.rxClosed = false ∧ t.ctl.ack = ackBit t.bte.n ∧ t.told = s.told := by
  obtain ⟨⟨hreq, hrw, hreqch, hrspch, hstart, hstop, hsent, hm, hf, hi, hen, hlast, hok, hreqCap, hrspCap, hk⟩,
    hts, hpc, hdr, hpend, hacked, hsize, hopen, harmed, -⟩ := h
  rw [hr] at hpc hdr
  have hc := hsize hr
  refine ⟨_, .event hok ha (fun _ he => ?given) (stepWhen_of ((addressGoesOut_iff _).2 ⟨hpend, hm, hstop, hf⟩)) ?wire <|
      .quiet hok rfl (fun _ => rfl) (stepWhen_of ?br4) rfl <|
      .quiet hok rfl (fun _ => rfl) (stepWhen_of ?br5) rfl <|
      .quiet hok rfl (fun _ => rfl) (stepWhen_of ?br6) rfl <|
      .quiet hok rfl (fun _ => rfl) (execTsAddrDone_arms hts (by simp) hf hen harmed (hreq ▸ hc)) rfl <| .done _,
    ⟨⟨hreq, hrw, hreqch, hrspch, hstart, hstop, hsent, hm, hf, hi, hen, hlast, hok, hreqCap, hrspCap, hk⟩,
      rfl, by simp [hr], rfl, rfl, rfl, hr.symm, hc⟩, rfl, hopen hr, rfl, rfl⟩
  case given => simpa [Eeprom.allows, Eeprom.Gives, hdr] using he
  case wire => simp [hdr]
  all_goals
    rw [NoFault] at hf
    simp [GuardG, NoFault, hpc, hm, hts, hf]

/-! ### The data phase -/

/-- The conditions the two data steps share hold (41 R153, R154). -/
theorem DataOpen.dataStepReady (h : DataOpen k r s) : Machine.dataStepReady s = true :=
  (dataStepReady_iff s).2 ⟨h.armed, h.tsPc, h.master, h.addrAcked, h.noFault⟩

/-- DP1 moves the next byte (41 R153). -/
theorem DataOpen.dataWbyte {answer : Answer} {i : Fin 16} (h : DataOpen k r s) (hr : isRead r = false)
    (hi : i.val = s.bte.idx.val) (hlt : s.bte.idx.val < s.bte.n.val) :
    exec (.dataWbyte answer) s = .next (sendByte i answer s) := by
  have hdir : s.bte.dir = false := h.engineDir.trans hr
  have hpc : s.bpd.pc = .dataW := by simpa [hr] using h.bpdPc
  rw [exec, execDataWbyte, nextIndex_some.2 ⟨hlt, hi⟩]
  exact stepWhen_of (by rw [h.dataStepReady, hdir, hpc]; rfl)

/-- DP2 takes the next byte while the frame is not closed (41 R154). -/
theorem DataOpen.dataRbyte {b : Byte} {i : Fin 16} (h : DataOpen k r s) (hr : isRead r = true) (hi : i.val = s.bte.idx.val)
    (hlt : s.bte.idx.val < s.bte.n.val) (hopen : s.hid.rxClosed = false) :
    exec (.dataRbyte b) s = .next (takeByte i b s) := by
  have hdir : s.bte.dir = true := h.engineDir.trans hr
  have hpc : s.bpd.pc = .dataR := by simpa [hr] using h.bpdPc
  rw [exec, execDataRbyte, nextIndex_some.2 ⟨hlt, hi⟩]
  exact stepWhen_of (by rw [h.dataStepReady, hdir, hpc, hopen]; rfl)

/-- `DataOpen` says nothing of the agenda. -/
theorem DataOpen.withAgenda (h : DataOpen k r s) (a : List Stimulus) : DataOpen k r { s with agenda := a } :=
  { h with toServing := { h.toServing with } }

/-- An acknowledged DP1 keeps the data phase open. -/
theorem DataOpen.sendByte {i : Fin 16} (h : DataOpen k r s) : DataOpen k r (sendByte i .ack s) :=
  { h with toServing := { h.toServing with } }

/-- DP2 keeps the data phase open. -/
theorem DataOpen.takeByte {i : Fin 16} {b : Byte} (h : DataOpen k r s) : DataOpen k r (takeByte i b s) :=
  { h with toServing := { h.toServing with } }

/-- One byte is sent and acknowledged (41 R153). -/
theorem DataOpen.sendOne {i : Fin 16} (h : DataOpen k r s) (hr : isRead r = false) (hi : i.val = s.bte.idx.val)
    (hlt : s.bte.idx.val < s.bte.n.val) (ha : s.agenda = move (.dataWbyte .ack) :: rest) :
    ∃ t, Path [move (.dataWbyte .ack)] s [.wr s.bte.buf[i] .ack] t ∧ DataOpen k r t ∧
      t.bte = { s.bte with idx := i.succ } ∧ t.told = s.told ∧ t.ctl = s.ctl :=
  have hu := h.withAgenda rest
  ⟨_, .event h.notRefused ha (fun _ _ => rfl) (hu.dataWbyte hr hi hlt) rfl (.done _), hu.sendByte, rfl, rfl, rfl⟩

/-- `m` bytes are sent and acknowledged, in order (41 R153). -/
theorem DataOpen.sendBytes (h : DataOpen k r s) (hr : isRead r = false) (m : Nat) (hm : s.bte.idx.val + m ≤ s.bte.n.val)
    (ha : s.agenda = List.replicate m (move (.dataWbyte .ack)) ++ rest) :
    ∃ t, Path (List.replicate m (move (.dataWbyte .ack))) s
        (((s.bte.buf.toList.drop s.bte.idx.val).take m).map fun b => .wr b .ack) t ∧ DataOpen k r t ∧
      t.bte.idx.val = s.bte.idx.val + m ∧ t.bte.n = s.bte.n ∧ t.bte.buf = s.bte.buf ∧ t.told = s.told ∧ t.ctl = s.ctl := by
  induction m generalizing s with
  | zero => exact ⟨s, by simpa using .done s, h, rfl, rfl, rfl, rfl, rfl⟩
  | succ m ih =>
    have hlt : s.bte.idx.val < 16 := by omega
    obtain ⟨u, hone, hu, hbte, htold, hctl⟩ := h.sendOne (i := ⟨s.bte.idx.val, hlt⟩) hr rfl (by omega) ha
    have hidx : u.bte.idx.val = s.bte.idx.val + 1 := by simp [hbte]
    have hn : u.bte.n = s.bte.n := by simp [hbte]
    have hbuf : u.bte.buf = s.bte.buf := by simp [hbte]
    obtain ⟨t, hpath, ht, hidx', hn', hbuf', htold', hctl'⟩ := ih hu (by rw [hidx, hn]; omega) (hone.agenda_rest ha)
    refine ⟨t, ?_, ht, by omega, hn'.trans hn, hbuf'.trans hbuf, htold'.trans htold, hctl'.trans hctl⟩
    rw [hidx, hbuf] at hpath
    rw [List.drop_eq_getElem_cons (by simpa using hlt)]
    exact hone.append hpath

/-- Storing byte number `i` leaves the bytes before it and puts the new one behind them. -/
theorem firstBytes_set (buf : Buf) (i : Fin 16) (b : Byte) :
    firstBytes (i.val + 1) (buf.set i b) = firstBytes i.val buf ++ [b] := by
  simp [firstBytes, List.take_add_one, Vector.toList_set, List.take_set_of_le]

/-- With the acknowledge bit BR5 writes, the block answers every byte but the last with ACK (41 R151). -/
theorem readAnswer_eq {n i : Count} (hi : i.val < n.val) :
    readAnswer (ackBit n) true i n = if i.val + 1 = n.val then .nack else .ack := by
  split
  case isTrue hlast => exact (readAnswer_eq_nack_iff hi).2 hlast
  case isFalse hlast =>
    cases hk : readAnswer (ackBit n) true i n with
    | ack => rfl
    | nack => exact absurd ((readAnswer_eq_nack_iff hi).1 hk) hlast

/-- One byte is received; only the last of `n` is answered NACK, which closes the frame (41 R151, R154). -/
theorem DataOpen.receiveOne {b : Byte} (h : DataOpen k r s) (hr : isRead r = true) (hlt : s.bte.idx.val < s.bte.n.val)
    (hack : s.ctl.ack = ackBit s.bte.n) (hopen : s.hid.rxClosed = false) (ha : s.agenda = move (.dataRbyte b) :: rest) :
    ∃ t, Path [move (.dataRbyte b)] s [.rd b (if s.bte.idx.val + 1 = s.bte.n.val then .nack else .ack)] t ∧ DataOpen k r t ∧
      t.bte.idx.val = s.bte.idx.val + 1 ∧ t.bte.n = s.bte.n ∧ t.hid.rxClosed = decide (s.bte.idx.val + 1 = s.bte.n.val) ∧
      firstBytes t.bte.idx.val t.bte.buf = firstBytes s.bte.idx.val s.bte.buf ++ [b] ∧ t.told = s.told ∧ t.ctl = s.ctl := by
  let i : Fin 16 := ⟨s.bte.idx.val, by omega⟩
  have hu := h.withAgenda rest
  have hanswer : readAnswer s.ctl.ack s.ctl.last s.bte.idx s.bte.n = if s.bte.idx.val + 1 = s.bte.n.val then .nack else .ack := by
    rw [hack, h.last, readAnswer_eq hlt]
  refine ⟨Machine.takeByte i b { s with agenda := rest },
    .event h.notRefused ha (fun _ he => decide_eq_true he) (hu.dataRbyte hr rfl hlt hopen) (by simp [hanswer]) (.done _),
    hu.takeByte, rfl, rfl, ?_, firstBytes_set _ i b, rfl, rfl⟩
  simp only [takeByte_hid, hopen, hanswer, Bool.false_or]
  split <;> simp [*]

/-- Bytes before the last are received and answered ACK (41 R151, R154). -/
theorem DataOpen.receiveBytes (bytes : List Byte) (h : DataOpen k r s) (hr : isRead r = true)
    (hlt : s.bte.idx.val + bytes.length < s.bte.n.val) (hack : s.ctl.ack = ackBit s.bte.n) (hopen : s.hid.rxClosed = false)
    (ha : s.agenda = bytes.map (fun b => move (.dataRbyte b)) ++ rest) :
    ∃ t, Path (bytes.map fun b => move (.dataRbyte b)) s (bytes.map fun b => .rd b .ack) t ∧ DataOpen k r t ∧
      t.bte.idx.val = s.bte.idx.val + bytes.length ∧ t.bte.n = s.bte.n ∧ t.hid.rxClosed = false ∧
      firstBytes t.bte.idx.val t.bte.buf = firstBytes s.bte.idx.val s.bte.buf ++ bytes ∧ t.told = s.told ∧ t.ctl = s.ctl := by
  induction bytes generalizing s with
  | nil => exact ⟨s, .done s, h, rfl, rfl, hopen, by simp, rfl, rfl⟩
  | cons b bytes ih =>
    rw [List.length_cons] at hlt
    have hnot : s.bte.idx.val + 1 ≠ s.bte.n.val := by omega
    obtain ⟨u, hone, hu, hidx, hn, hclosed, hbytes, htold, hctl⟩ := h.receiveOne hr (by omega) hack hopen ha
    rw [if_neg hnot] at hone
    obtain ⟨t, hpath, ht, hidx', hn', hclosed', hbytes', htold', hctl'⟩ := ih hu (by rw [hidx, hn]; omega)
      (by rw [hctl, hn, hack]) (by simp [hclosed, hnot]) (hone.agenda_rest ha)
    exact ⟨t, hone.append hpath, ht, by rw [hidx', hidx, List.length_cons]; omega, hn'.trans hn, hclosed',
      by simp [hbytes', hbytes], htold'.trans htold, hctl'.trans hctl⟩

/-! ### The end -/

/-- The moves after the last byte of a request. -/
abbrev endMoves (k : Nat) : List Stimulus :=
  [move .tsDataDone, move .tsFinish, move .tsPut, move .envStop, move (.chRecv k)]

/-- All bytes moved, the response is put and taken and the bus released, and the block is ready again (42 R180 to R184, 43 R215). -/
theorem DataOpen.finish (h : DataOpen k r s) (hidx : s.bte.idx = s.bte.n) (ha : s.agenda = endMoves k ++ rest) :
    ∃ t, Path (endMoves k) s [.stop] t ∧ ReadyFor k t ∧
      t.told = s.told ++ [.received k ⟨.success, s.bte.idx, responseBuffer s⟩] ∧ t.ctl.ack = s.ctl.ack := by
  obtain ⟨⟨hreq, hrw, hreqch, hrspch, hstart, hstop, hsent, hm, hf, hi, hen, hlast, hok, hreqCap, hrspCap, hk⟩,
    hts, hpc, hpend, hacked, harmed, hdir, hc⟩ := h
  have hopen : s.bpd.pc ≠ .ready := by rw [hpc]; split <;> decide
  refine ⟨_, .quiet hok ha (fun _ => rfl) (stepWhen_of ?done) rfl <|
      .quiet hok rfl (fun _ => rfl) (execTsFinish_ends rfl hi hopen) rfl <|
      .quiet hok rfl (fun _ => rfl) (stepWhen_of ?put) rfl <|
      .event hok rfl (fun _ _ => rfl) (execEnvStop_master rfl hm) rfl <|
      .quiet hok rfl (fun _ => rfl)
        (execChRecv_front (q := ⟨.success, s.bte.idx, responseBuffer s⟩) hk (congrArg (· ++ [_]) hrspch)) rfl <| .done _,
    ⟨⟨hreqch, rfl, rfl, rfl, rfl, rfl, rfl, ?flags, rfl⟩, hi, hen, hlast, hok, hreqCap, hrspCap, hk⟩, rfl, rfl⟩
  case done =>
    rw [NoFault] at hf
    simp [NoFault, hts, hidx, hf]
  case put => simp [hrspch]; omega
  case flags => simp [clearFlags]

end Sys2Proof.Machine
end

section
/-! SUPPORT. A whole request that meets no fault: the parts put together (42 R190, R191). -/

namespace Sys2Proof.Machine

variable {k : Nat} {r : TransferRequest} {rest : List Stimulus} {s t : State}

/-- `t` is a ready state in which producer `k` has sent `r` and been given `q`, a Success of the request's length, and nothing else was
told. -/
structure Served (k : Nat) (r : TransferRequest) (q : TransferResponse) (s t : State) : Prop where
  ready : ReadyFor k t
  told : t.told = s.told ++ [.accepted k r, .received k q]
  status : q.status = .success
  length : q.length.val = r.length.toNat

/-- The moves of a Write, part by part. -/
theorem writeMoves_eq (hr : isRead r = false) : writeMoves k r =
    openMoves k r ++ (writeDataMoves ++ (List.replicate r.length.toNat (move (.dataWbyte .ack)) ++ endMoves k)) := by
  simp [writeMoves, openMoves, hr]

/-- The moves of a Read, part by part, the last byte apart. -/
theorem readMoves_concat (hr : isRead r = true) (bytes : List Byte) (b : Byte) : readMoves k r (bytes ++ [b]) =
    openMoves k r ++ (readDataMoves ++ (bytes.map (fun b => move (.dataRbyte b)) ++ ([move (.dataRbyte b)] ++ endMoves k))) := by
  simp [readMoves, openMoves, hr]

/-- The wire events of a Read, part by part, the last byte apart. -/
theorem readFrame_concat (r : TransferRequest) (bytes : List Byte) (b : Byte) : readFrame r (bytes ++ [b]) =
    .start :: .addr (wireByte r.deviceAddress true) .ack :: (bytes.map (fun b => .rd b .ack) ++ [.rd b .nack, .stop]) := by
  simp [readFrame]

/-- The received bytes of a Read stand in its response (42 R183). -/
theorem firstBytes_responseBuffer (hr : isRead s.ts.req = true) :
    firstBytes s.bte.idx.val (responseBuffer s) = firstBytes s.bte.idx.val s.bte.buf := by
  refine List.ext_getElem (by simp [firstBytes]) fun i hi _ => ?_
  simp only [firstBytes, List.length_take, Vector.length_toList] at hi
  simpa [firstBytes] using responseBuffer_received s ⟨i, by omega⟩ hr (show i < _ by omega)

/-- A Write that meets no fault, from request to response, with what it puts on the wire (42 R190). -/
theorem ReadyFor.writePath (h : ReadyFor k s) (hr : isRead r = false) (hadm : admitted r = true)
    (ha : s.agenda = writeMoves k r ++ rest) :
    ∃ t q, Path (writeMoves k r) s (writeFrame r) t ∧ Served k r q s t ∧ t.ctl.ack = s.ctl.ack := by
  rw [writeMoves_eq hr] at ha ⊢
  simp only [List.append_assoc] at ha
  obtain ⟨u, hopen, hu, htold, hack⟩ := h.openPath hadm ha
  have ha₁ := hopen.agenda_rest ha
  obtain ⟨v, hdata, hv, hidx, hbuf, htold₁, hctl₁⟩ := hu.openWrite hr hadm ha₁
  have ha₂ := hdata.agenda_rest ha₁
  obtain ⟨-, -, hcount⟩ := operandCount_some.1 hv.count
  obtain ⟨x, hsend, hx, hidx₂, hn₂, -, htold₂, hctl₂⟩ := hv.sendBytes hr r.length.toNat (by simp [hidx, hcount]) ha₂
  have hlen : x.bte.idx.val = r.length.toNat := by simp [hidx₂, hidx]
  obtain ⟨t, hend, ht, htold₃, hack₃⟩ := hx.finish (Fin.ext (by rw [hlen, hn₂, hcount])) (hsend.agenda_rest ha₂)
  refine ⟨t, ⟨.success, x.bte.idx, responseBuffer x⟩, ?path, ⟨ht, ?told, rfl, hlen⟩, ?ack⟩
  case path =>
    have hpath := hopen.append (hdata.append (hsend.append hend))
    simpa [writeFrame, firstBytes, hbuf, hidx] using hpath
  case told => simp [htold₃, htold₂, htold₁, htold]
  case ack => rw [hack₃, hctl₂, hctl₁, hack]

/-- A Read that meets no fault, from request to response, with what it puts on the wire (42 R191). -/
theorem ReadyFor.readPath (h : ReadyFor k s) (hr : isRead r = true) (hadm : admitted r = true) {bytes : List Byte}
    (hlen : bytes.length = r.length.toNat) (ha : s.agenda = readMoves k r bytes ++ rest) :
    ∃ t q, Path (readMoves k r bytes) s (readFrame r bytes) t ∧ Served k r q s t ∧ firstBytes q.length.val q.buffer = bytes ∧
      t.ctl.ack = decide (r.length.toNat ≠ 1) := by
  obtain ⟨-, hpos, -⟩ := (admitted_iff r).1 hadm
  obtain rfl | ⟨bytes, b, rfl⟩ := bytes.eq_nil_or_concat'
  · rw [List.length_nil] at hlen; omega
  rw [readMoves_concat hr] at ha ⊢
  simp only [List.append_assoc] at ha
  obtain ⟨u, hopen, hu, htold, -⟩ := h.openPath hadm ha
  have ha₁ := hopen.agenda_rest ha
  obtain ⟨v, hdata, hv, hidx, hclosed, hack, htold₁⟩ := hu.openRead hr ha₁
  have ha₂ := hdata.agenda_rest ha₁
  obtain ⟨-, -, hcount⟩ := operandCount_some.1 hv.count
  rw [← hcount, List.length_append, List.length_singleton] at hlen
  obtain ⟨x, hfirst, hx, hidx₂, hn₂, hclosed₂, hbytes₂, htold₂, hctl₂⟩ :=
    hv.receiveBytes bytes hr (by simp [hidx, ← hlen]) hack hclosed ha₂
  have ha₃ := hfirst.agenda_rest ha₂
  have hlast : x.bte.idx.val + 1 = x.bte.n.val := by simp [hidx₂, hn₂, hidx, ← hlen]
  obtain ⟨y, hone, hy, hidx₃, hn₃, -, hbytes₃, htold₃, hctl₃⟩ :=
    hx.receiveOne hr (by omega) (by rw [hctl₂, hn₂, hack]) hclosed₂ ha₃
  obtain ⟨t, hend, ht, htold₄, hack₄⟩ := hy.finish (Fin.ext (by rw [hidx₃, hn₃, hlast])) (hone.agenda_rest ha₃)
  refine ⟨t, ⟨.success, y.bte.idx, responseBuffer y⟩, ?path, ⟨ht, ?told, rfl, ?length⟩, ?received, ?ack⟩
  case path =>
    rw [if_pos hlast] at hone
    rw [readFrame_concat]
    exact hopen.append (hdata.append (hfirst.append (hone.append hend)))
  case told => simp [htold₄, htold₃, htold₂, htold₁, htold]
  case length => exact (hidx₃.trans hlast).trans (by rw [hn₂, hcount])
  case received =>
    rw [firstBytes_responseBuffer (by rw [hy.req, hr]), hbytes₃, hbytes₂, hidx]
    rfl
  case ack =>
    rw [hack₄, hctl₃, hctl₂, hack, ← hcount]
    rfl

end Sys2Proof.Machine
end

section
/-! PROOFS. Requests issued one at a time (20_memory R75). -/

namespace Sys2Proof.Machine

variable {k : Nat} {r : TransferRequest} {q : TransferResponse} {rest : List Stimulus} {s t : State}

/-- Serving a request adds it to the accepted ones. -/
theorem Served.acceptedRequests_eq (h : Served k r q s t) : acceptedRequests t.told = acceptedRequests s.told ++ [r] := by
  simp [h.told, acceptedRequests]

/-- Serving a request adds its response to those given. -/
theorem Served.receivedResponses_eq (h : Served k r q s t) : receivedResponses t.told = receivedResponses s.told ++ [q] := by
  simp [h.told, receivedResponses]

/-- A job is served from any ready state, which leads to a ready state (42 R190, R191). -/
theorem ReadyFor.servePath {j : TransferRequest × List Byte} (h : ReadyFor k s) (hj : JobOk j)
    (ha : s.agenda = serveMoves k j.1 j.2 ++ rest) :
    ∃ t q wire, Path (serveMoves k j.1 j.2) s wire t ∧ Served k j.1 q s t ∧ JobAnswered j q := by
  obtain ⟨hadm, hlen⟩ := hj
  cases hr : isRead j.1 with
  | false =>
    simp only [serveMoves, hr] at ha ⊢
    obtain ⟨t, q, hpath, hserved, -⟩ := h.writePath hr hadm ha
    exact ⟨t, q, _, hpath, hserved, hserved.status, hserved.length, by simp [hr]⟩
  | true =>
    simp only [serveMoves, hr] at ha ⊢
    obtain ⟨t, q, hpath, hserved, hbytes, -⟩ := h.readPath hr hadm (hlen hr) ha
    exact ⟨t, q, _, hpath, hserved, hserved.status, hserved.length, fun _ => hbytes⟩

/-- Settles O58, by induction on the list of jobs. -/
theorem oneAtATime_answered : Obligations.OneAtATime := by
  intro k jobs rest s h hjobs ha
  induction jobs generalizing s with
  | nil => exact ⟨s, [], rfl, ha, h, by simp, by simp, .nil⟩
  | cons j jobs ih =>
    have hmoves : oneAtATime k (j :: jobs) = serveMoves k j.1 j.2 ++ oneAtATime k jobs := List.flatMap_cons
    rw [hmoves] at ha ⊢
    rw [List.append_assoc] at ha
    obtain ⟨u, q, wire, hpath, hserved, hq⟩ := h.servePath (hjobs j (.head _)) ha
    obtain ⟨t, qs, hrun, hrest, ht, hacc, hrec, hqs⟩ :=
      ih u hserved.ready (fun j' hj' => hjobs j' (.tail _ hj')) (hpath.agenda_rest ha)
    refine ⟨t, q :: qs, ?_, hrest, ht, ?_, ?_, .cons hq hqs⟩
    · rw [List.length_append, run_add hpath.run, hrun]
    · simp [hacc, hserved.acceptedRequests_eq]
    · simp [hrec, hserved.receivedResponses_eq]

end Sys2Proof.Machine
end

section
/-! SUPPORT. What the EEPROM gives (95 section 5, F-1 to F-4): its address, its pointer, the bytes it reads out. -/

namespace Sys2Proof.Machine

variable {e : Eeprom} {off : BitVec 9}

/-- What the target gives one after the other it gives as a whole. -/
theorem Eeprom.givesAll_append {w w' : List WireEvent} :
    e.GivesAll (w ++ w') ↔ e.GivesAll w ∧ (w.foldl Eeprom.onEvent e).GivesAll w' := by
  induction w generalizing e with
  | nil => simp [GivesAll]
  | cons x w ih => simp [GivesAll, ih, and_assoc]

/-- The low seven bits of `dev(off)` are EE_BASE with offset bit 8 or-ed in (30 R107). -/
theorem Eeprom.deviceAddress7_deviceFor :
    deviceAddress7 (e.deviceFor off) = e.base ||| (off.extractLsb' 8 1).zeroExtend 7 := by
  simp only [Eeprom.deviceFor, deviceAddress7]
  generalize e.base ||| (off.extractLsb' 8 1).zeroExtend 7 = x
  revert x; decide

/-- F-1: with EE_BASE even the target answers to `dev(off)` (30 R107). -/
theorem Eeprom.answers_deviceFor (hbase : e.base.getLsbD 0 = false) (rw : Bool) :
    e.answers (wireByte (e.deviceFor off) rw) = true := by
  have key : ∀ (base : BitVec 7) (b : BitVec 1), base.getLsbD 0 = false →
      base ||| b.zeroExtend 7 = base ∨ base ||| b.zeroExtend 7 = base + 1 := by decide
  simpa [Eeprom.answers, wireByte_address, deviceAddress7_deviceFor] using key e.base (off.extractLsb' 8 1) hbase

/-- Bit 1 of the address byte of `dev(off)` is offset bit 8 (30 R107). -/
theorem Eeprom.wireByte_deviceFor_bit (hbase : e.base.getLsbD 0 = false) (rw : Bool) :
    (wireByte (e.deviceFor off) rw).getLsbD 1 = off.getLsbD 8 := by
  have h : ((wireByte (e.deviceFor off) rw).extractLsb' 1 7).getLsbD 0 = off.getLsbD 8 := by
    rw [wireByte_address, deviceAddress7_deviceFor]
    simpa using fun h => absurd h (by simpa using hbase)
  simpa using h

/-- F-2: an address byte of `dev(off)` puts offset bit 8 into the pointer. -/
theorem Eeprom.onEvent_addr_deviceFor (hbase : e.base.getLsbD 0 = false) (rw : Bool) :
    e.onEvent (.addr (wireByte (e.deviceFor off) rw) .ack) =
      { e with ptr := BitVec.ofBool (off.getLsbD 8) ++ e.ptr.extractLsb' 0 8, first := true } := by
  rw [Eeprom.onEvent, wireByte_deviceFor_bit hbase]

/-- F-4: every byte read out moves the pointer on, whatever the answer. -/
theorem Eeprom.foldl_onEvent_rd (answer : Answer) (bytes : List Byte) :
    (bytes.map fun b => WireEvent.rd b answer).foldl Eeprom.onEvent e = { e with ptr := e.ptr + BitVec.ofNat 9 bytes.length } := by
  induction bytes generalizing e with
  | nil => simp
  | cons b bytes ih => simp [ih, Eeprom.onEvent, BitVec.add_assoc, BitVec.ofNat_add, BitVec.add_comm (1#9)]

@[simp] theorem length_storedBytes (n : Nat) : (storedBytes e off n).length = n := by simp [storedBytes]

/-- The last of the stored bytes stands behind the others. -/
theorem storedBytes_succ (n : Nat) :
    storedBytes e off (n + 1) = storedBytes e off n ++ [Memory.read e.mem (off + BitVec.ofNat 9 n).toNat] := by
  simp [storedBytes, List.range_succ, Config.eepromCap, BitVec.toNat_add]

/-- F-4: from its pointer on the target reads out the bytes it stores. -/
theorem Eeprom.givesAll_storedBytes (answer : Answer) (n : Nat) :
    e.GivesAll ((storedBytes e e.ptr n).map fun b => .rd b answer) := by
  induction n with
  | zero => simp [storedBytes, GivesAll]
  | succ n ih =>
    rw [storedBytes_succ, List.map_append, givesAll_append, foldl_onEvent_rd]
    exact ⟨ih, by simp [Gives], trivial⟩

/-- An offset is its bit 8 and its low byte (30 R107). -/
theorem offset_eq_append : BitVec.ofBool (off.getLsbD 8) ++ off.extractLsb' 0 8 = off := by
  revert off; decide

/-- `EESET off` is given by the target and leaves its pointer at `off` (F-2, F-3). -/
theorem Eeprom.eeset_frame (hbase : e.base.getLsbD 0 = false) :
    e.GivesAll (writeFrame (eesetRequest e off)) ∧
    (writeFrame (eesetRequest e off)).foldl Eeprom.onEvent e = { e with ptr := off, first := false } := by
  have hframe : writeFrame (eesetRequest e off) =
      [.start, .addr (wireByte (e.deviceFor off) false) .ack, .wr (off.extractLsb' 0 8) .ack, .stop] := rfl
  have hptr : (BitVec.ofBool (off.getLsbD 8) ++ e.ptr.extractLsb' 0 8).extractLsb' 8 1 = BitVec.ofBool (off.getLsbD 8) :=
    BitVec.extractLsb'_append_eq_left
  rw [hframe]
  refine ⟨⟨trivial, answers_deviceFor hbase false, rfl, trivial, trivial⟩, ?_⟩
  calc _ = (e.onEvent (.addr (wireByte (e.deviceFor off) false) .ack)).onEvent (.wr (off.extractLsb' 0 8) .ack) := rfl
    _ = { e with ptr := off, first := false } := by
      rw [onEvent_addr_deviceFor hbase]
      simp only [Eeprom.onEvent, ↓reduceIte, hptr, offset_eq_append]

/-- The target gives what `RD dev(off), n` reads when its pointer is at `off` (F-2, F-4). -/
theorem Eeprom.givesAll_eerd_frame (hbase : e.base.getLsbD 0 = false) (hptr : e.ptr = off) {n : Byte} (hn : 1 ≤ n.toNat) :
    e.GivesAll (readFrame (eerdRequest e off n) (storedBytes e off n.toNat)) := by
  obtain ⟨m, hm⟩ : ∃ m, n.toNat = m + 1 := ⟨n.toNat - 1, by omega⟩
  have haddr : e.onEvent (.addr (wireByte (e.deviceFor off) true) .ack) = { e with first := true } := by
    rw [onEvent_addr_deviceFor hbase, hptr, offset_eq_append, ← hptr]
  have hbytes := givesAll_storedBytes (e := { e with first := true }) .ack m
  rw [hm, storedBytes_succ, readFrame_concat]
  refine ⟨trivial, answers_deviceFor hbase true, ?_⟩
  change Eeprom.GivesAll (e.onEvent (.addr (wireByte (e.deviceFor off) true) .ack)) _
  subst hptr
  rw [haddr, givesAll_append, foldl_onEvent_rd]
  exact ⟨hbytes, by simp [Gives], trivial, trivial⟩

/-- Reading leaves the target's address and memory as they are (F-4). -/
theorem Eeprom.readFrame_keeps (r : TransferRequest) (bytes : List Byte) :
    ((readFrame r bytes).foldl Eeprom.onEvent e).base = e.base ∧ ((readFrame r bytes).foldl Eeprom.onEvent e).mem = e.mem := by
  simp only [readFrame, List.foldl_append, foldl_onEvent_rd]
  exact ⟨rfl, rfl⟩

end Sys2Proof.Machine
end

section
/-! PROOFS. The EEPROM convention (30_encoding R107) under the fixture of 95 section 5. -/

namespace Sys2Proof.Machine

theorem eesetRequest_admitted (e : Eeprom) (off : BitVec 9) : admitted (eesetRequest e off) = true := rfl

theorem eerdRequest_admitted (e : Eeprom) (off : BitVec 9) {n : Byte} (hn : 1 ≤ n.toNat ∧ n.toNat ≤ 16) :
    admitted (eerdRequest e off n) = true :=
  (admitted_iff _).2 ⟨.inr rfl, hn⟩

/-- Settles O59: EESET brings the target's pointer to `off`, from where RD reads. -/
theorem eepromReadReturnsStored : Obligations.EepromReadReturnsStored := by
  rintro k off n rest ⟨s, e⟩ h hbase hpos hle ha
  dsimp only at h hbase ha ⊢
  rw [eerdMoves, List.append_assoc] at ha
  obtain ⟨u, q₁, hset, hserved₁, -⟩ := h.writePath (r := eesetRequest e off) rfl rfl ha
  have ha₁ := hset.agenda_rest ha
  obtain ⟨t, q₂, hread, hserved₂, hbytes, -⟩ := hserved₁.ready.readPath (r := eerdRequest e off n) rfl
    (eerdRequest_admitted e off ⟨hpos, hle⟩) (length_storedBytes n.toNat) ha₁
  obtain ⟨hgives₁, htarget⟩ := Eeprom.eeset_frame (off := off) hbase
  have hgives₂ := Eeprom.givesAll_eerd_frame (e := { e with ptr := off, first := false }) hbase rfl hpos
  have hrun := (hset.append hread).bench_run (Eeprom.givesAll_append.2 ⟨hgives₁, htarget ▸ hgives₂⟩)
  rw [List.foldl_append, htarget] at hrun
  obtain ⟨hbase₂, hmem₂⟩ := Eeprom.readFrame_keeps (e := { e with ptr := off, first := false }) (eerdRequest e off n)
    (storedBytes e off n.toNat)
  refine ⟨_, q₁, q₂, hrun, hread.agenda_rest ha₁, hserved₂.ready, hbase₂, hmem₂, ?told, hserved₂.status, hserved₂.length, ?bytes⟩
  case told => simp [hserved₂.receivedResponses_eq, hserved₁.receivedResponses_eq]
  case bytes => exact hserved₂.length ▸ hbytes

end Sys2Proof.Machine
end

section
/-! SUPPORT. Decoding, one format at a time: which bytes decode, and to what (30_encoding Tables 30-1 to 30-4). -/

namespace Sys2Proof.Machine

/-! ### Fields -/

@[simp] theorem lengthAdmitted_iff (b : Byte) : lengthAdmitted b = true ↔ 1 ≤ b.toNat ∧ b.toNat ≤ 16 := by
  simp [lengthAdmitted]

/-- The format's test of a CFG record is INIT's (30_encoding R94). -/
@[simp] theorem cfgAdmitted_iff (c : CfgRecord) :
    c.admitted = true ↔ c.busSpeed = .fastMode400kHz ∧ c.analogFilter = true ∧ c.digitalFilter = false :=
  cfgAccepted_iff c

/-- A buffer is read from its own sixteen bytes only. -/
theorem bufOfList_some {l : List Byte} {p : Buf} : bufOfList l = some p ↔ l = p.toList := by
  constructor
  · unfold bufOfList
    split
    · rintro ⟨⟩
      rfl
    · simp
  · rintro rfl
    exact bufOfList_toList p

/-- A request record is read from its own bytes only (30_encoding Table 30-1). -/
theorem requestOfBytes_some {l : List Byte} {r : TransferRequest} :
    requestOfBytes l = some r ↔ l = r.kind :: r.deviceAddress :: r.length :: r.payload.toList := by
  constructor
  · unfold requestOfBytes
    split
    · simp only [Option.map_eq_some_iff, bufOfList_some]
      rintro ⟨p, rfl, rfl⟩
      rfl
    · simp
  · rintro rfl
    exact requestOfBytes_record _ _ _ _

/-- A count is read from its own byte only (30_encoding Table 30-2). -/
theorem countOfByte_some {b : Byte} {n : Count} : countOfByte b = some n ↔ b = BitVec.ofNat 8 n.val := by
  rw [← BitVec.toNat_inj, BitVec.toNat_ofNat, Nat.mod_eq_of_lt (by omega), countOfByte]
  split
  · simp [Fin.ext_iff, eq_comm]
  · simp only [reduceCtorEq, false_iff]
    omega

/-! ### Formats -/

/-- Format REQ (30_encoding Table 30-1). -/
theorem decode_request_ok {k : Nat} {bytes : List Byte} {i : Instr} :
    decode (.message (.request k) bytes) = .ok i ↔ ∃ a n, ∃ p : Buf, lengthAdmitted n = true ∧
      (bytes = 0x00#8 :: a :: n :: p.toList ∧ i = .reqWrite k a n p ∨
        bytes = 0x01#8 :: a :: n :: p.toList ∧ i = .reqRead k a n p) := by
  constructor
  · rw [decode]
    unfold decodeRequest
    split
    · simp
    next r hr =>
      rw [requestOfBytes_some] at hr
      obtain ⟨kind, a, n, p⟩ := r
      intro h
      split_ifs at h with hk hn hk' hn <;> cases h
      · exact ⟨a, n, p, hn, .inl ⟨hk ▸ hr, rfl⟩⟩
      · exact ⟨a, n, p, hn, .inr ⟨hk' ▸ hr, rfl⟩⟩
  · rintro ⟨a, n, p, hn, ⟨rfl, rfl⟩ | ⟨rfl, rfl⟩⟩
    · simp [decode, decodeRequest, hn]
    · simp [decode, decodeRequest, hn]

/-- Format RSP (30_encoding Table 30-2). -/
theorem decode_response_ok {k : Nat} {bytes : List Byte} {i : Instr} :
    decode (.message (.response k) bytes) = .ok i ↔ ∃ n : Count, ∃ b : Buf,
      bytes = 0x00#8 :: BitVec.ofNat 8 n.val :: b.toList ∧ i = .rspSuccess k n b ∨
      bytes = 0x01#8 :: BitVec.ofNat 8 n.val :: b.toList ∧ i = .rspError k n b := by
  constructor
  · rw [decode]
    unfold decodeResponse
    split
    next status length buffer =>
      split
      · simp
      next b hb =>
        split
        · simp
        next n hn =>
          rw [bufOfList_some] at hb
          rw [countOfByte_some] at hn
          subst hb hn
          intro h
          split_ifs at h with hs hs' <;> cases h
          · exact ⟨n, b, .inl ⟨hs ▸ rfl, rfl⟩⟩
          · exact ⟨n, b, .inr ⟨hs' ▸ rfl, rfl⟩⟩
    · simp
  · rintro ⟨n, b, ⟨rfl, rfl⟩ | ⟨rfl, rfl⟩⟩ <;> simp [decode, decodeResponse, countOfByte_some.2 rfl]

/-- Format CMD with the CFG record beside it (30_encoding Table 30-3). -/
theorem decode_command_ok {bytes : List Byte} {c : CfgRecord} {i : Instr} :
    decode (.command bytes c) = .ok i ↔ ∃ a n,
      bytes = [0x00#8, a, n] ∧ c.admitted = true ∧ i = .cmdInit c ∨
      bytes = [0x01#8, a, n] ∧ i = .cmdBeginWrite (.bw1 a) ∨
      bytes = [0x02#8, a, n] ∧ lengthAdmitted n = true ∧ i = .cmdBeginRead (.br1 a n) ∨
      bytes = [0x03#8, a, n] ∧ i = .cmdEnd := by
  constructor
  · rw [decode]
    unfold decodeCommand
    split
    next op a n =>
      intro h
      refine ⟨a, n, ?_⟩
      split_ifs at h <;> cases h <;> simp [*]
    · simp
  · rintro ⟨a, n, ⟨rfl, hc, rfl⟩ | ⟨rfl, rfl⟩ | ⟨rfl, hn, rfl⟩ | ⟨rfl, rfl⟩⟩
    · simp [decode, decodeCommand, hc]
    · rfl
    · simp [decode, decodeCommand, hn]
    · rfl

/-- An address byte is its seven address bits above the direction bit (30_encoding Table 30-4). -/
theorem addressByte_eq_append (b : Byte) : b.extractLsb' 1 7 ++ BitVec.ofBool (b.getLsbD 0) = b := by
  revert b; decide

/-- Format WA (30_encoding Table 30-4). -/
theorem decode_wire_ok {bytes : List Byte} {i : Instr} :
    decode (.message .wire bytes) = .ok i ↔ ∃ a : BitVec 7,
      bytes = [a ++ 0#1] ∧ i = .waWrite a ∨ bytes = [a ++ 1#1] ∧ i = .waRead a := by
  constructor
  · rw [decode]
    unfold decodeWire
    split
    next b =>
      intro h
      have hb := addressByte_eq_append b
      split_ifs at h with hdir <;> cases h
      · rw [hdir] at hb
        exact ⟨_, .inr ⟨congrArg ([·]) hb.symm, rfl⟩⟩
      · rw [Bool.eq_false_iff.2 hdir] at hb
        exact ⟨_, .inl ⟨congrArg ([·]) hb.symm, rfl⟩⟩
    · simp
  · rintro ⟨a, ⟨rfl, rfl⟩ | ⟨rfl, rfl⟩⟩ <;> revert a <;> decide

/-! ### Which bytes of a format's length decode -/

/-- REQ (30_encoding R101). -/
theorem request_decodes_iff {k : Nat} {kind a n : Byte} {p : Buf} :
    (∃ i, decode (.message (.request k) (kind :: a :: n :: p.toList)) = .ok i) ↔
      kind.toNat ≤ 1 ∧ 1 ≤ n.toNat ∧ n.toNat ≤ 16 := by
  constructor
  · rintro ⟨i, hi⟩
    obtain ⟨a', n', p', hn, ⟨h, -⟩ | ⟨h, -⟩⟩ := decode_request_ok.1 hi <;>
    · obtain ⟨rfl, -, rfl, -⟩ := by simpa using h
      exact ⟨by decide, (lengthAdmitted_iff n).1 hn⟩
  · rintro ⟨hk, hn⟩
    have hn' := (lengthAdmitted_iff n).2 hn
    obtain rfl | rfl : kind = 0x00#8 ∨ kind = 0x01#8 := by bv_omega
    · exact ⟨_, decode_request_ok.2 ⟨a, n, p, hn', .inl ⟨rfl, rfl⟩⟩⟩
    · exact ⟨_, decode_request_ok.2 ⟨a, n, p, hn', .inr ⟨rfl, rfl⟩⟩⟩

/-- RSP (30_encoding R102). -/
theorem response_decodes_iff {k : Nat} {status n : Byte} {b : Buf} :
    (∃ i, decode (.message (.response k) (status :: n :: b.toList)) = .ok i) ↔ status.toNat ≤ 1 ∧ n.toNat ≤ 16 := by
  constructor
  · rintro ⟨i, hi⟩
    obtain ⟨n', b', ⟨h, -⟩ | ⟨h, -⟩⟩ := decode_response_ok.1 hi <;>
    · obtain ⟨rfl, rfl, -⟩ := by simpa using h
      exact ⟨by decide, by simp; omega⟩
  · rintro ⟨hs, hn⟩
    obtain ⟨m, rfl⟩ : ∃ m : Count, n = BitVec.ofNat 8 m.val := ⟨⟨n.toNat, by omega⟩, by simp⟩
    obtain rfl | rfl : status = 0x00#8 ∨ status = 0x01#8 := by bv_omega
    · exact ⟨_, decode_response_ok.2 ⟨m, b, .inl ⟨rfl, rfl⟩⟩⟩
    · exact ⟨_, decode_response_ok.2 ⟨m, b, .inr ⟨rfl, rfl⟩⟩⟩

/-- CMD (30_encoding R103). -/
theorem command_decodes_iff {op a n : Byte} {c : CfgRecord} :
    (∃ i, decode (.command [op, a, n] c) = .ok i) ↔
      op.toNat ≤ 3 ∧ (op.toNat = 2 → 1 ≤ n.toNat ∧ n.toNat ≤ 16) ∧
        (op.toNat = 0 → c.busSpeed = .fastMode400kHz ∧ c.analogFilter = true ∧ c.digitalFilter = false) := by
  constructor
  · rintro ⟨i, hi⟩
    obtain ⟨a', n', ⟨h, hc, -⟩ | ⟨h, -⟩ | ⟨h, hn, -⟩ | ⟨h, -⟩⟩ := decode_command_ok.1 hi <;> cases h
    · simpa using hc
    · simp
    · simpa using hn
    · simp
  · rintro ⟨hop, hsize, hcfg⟩
    obtain rfl | rfl | rfl | rfl : op = 0x00#8 ∨ op = 0x01#8 ∨ op = 0x02#8 ∨ op = 0x03#8 := by bv_omega
    · exact ⟨_, decode_command_ok.2 ⟨a, n, .inl ⟨rfl, (cfgAdmitted_iff c).2 (hcfg rfl), rfl⟩⟩⟩
    · exact ⟨.cmdBeginWrite (.bw1 a), rfl⟩
    · exact ⟨_, decode_command_ok.2 ⟨a, n, .inr (.inr (.inl ⟨rfl, (lengthAdmitted_iff n).2 (hsize rfl), rfl⟩))⟩⟩
    · exact ⟨.cmdEnd, rfl⟩

/-- WA (30_encoding Table 30-4). -/
theorem wire_decodes (b : Byte) : ∃ i, decode (.message .wire [b]) = .ok i := by
  simp only [decode, decodeWire]
  split <;> exact ⟨_, rfl⟩

end Sys2Proof.Machine
end

section
/-! PROOFS. Encoding and decoding (30_encoding R90 to R103). -/

namespace Sys2Proof.Machine

/-- Settles O30: each format reads its own bytes back, and a step that no bits select stands for itself. -/
theorem decodeEncode : Obligations.DecodeEncode := by
  intro i hwf
  cases i with
  | reqWrite k a n p => exact decode_request_ok.2 ⟨a, n, p, hwf, .inl ⟨rfl, rfl⟩⟩
  | reqRead k a n p => exact decode_request_ok.2 ⟨a, n, p, hwf, .inr ⟨rfl, rfl⟩⟩
  | rspSuccess k n b => exact decode_response_ok.2 ⟨n, b, .inl ⟨rfl, rfl⟩⟩
  | rspError k n b => exact decode_response_ok.2 ⟨n, b, .inr ⟨rfl, rfl⟩⟩
  | cmdInit c => exact decode_command_ok.2 ⟨0x00#8, 0x00#8, .inl ⟨rfl, hwf, rfl⟩⟩
  | cmdBeginWrite st => cases st <;> rfl
  | cmdBeginRead st =>
    cases st with
    | br1 a n => exact decode_command_ok (c := .sample).2 ⟨a, n, .inr (.inr (.inl ⟨rfl, hwf, rfl⟩))⟩
    | _ => rfl
  | waWrite a => exact decode_wire_ok.2 ⟨a, .inl ⟨rfl, rfl⟩⟩
  | waRead a => exact decode_wire_ok.2 ⟨a, .inr ⟨rfl, rfl⟩⟩
  | _ => rfl

/-- Settles O31: what each format says of bytes that decode. -/
theorem encodeDecode : Obligations.EncodeDecode := by
  refine ⟨fun k bytes i h => ?req, fun k bytes i h => ?rsp, fun bytes i h => ?wa, fun bytes c i h => ?cmd⟩
  case req => obtain ⟨a, n, p, -, ⟨rfl, rfl⟩ | ⟨rfl, rfl⟩⟩ := decode_request_ok.1 h <;> rfl
  case rsp => obtain ⟨n, b, ⟨rfl, rfl⟩ | ⟨rfl, rfl⟩⟩ := decode_response_ok.1 h <;> rfl
  case wa => obtain ⟨a, ⟨rfl, rfl⟩ | ⟨rfl, rfl⟩⟩ := decode_wire_ok.1 h <;> rfl
  case cmd =>
    obtain ⟨a, n, ⟨rfl, -, rfl⟩ | ⟨rfl, rfl⟩ | ⟨rfl, -, rfl⟩ | ⟨rfl, rfl⟩⟩ := decode_command_ok.1 h <;>
      simp [encodeBytes, BeginWriteStep.bytes, BeginReadStep.bytes]

/-- Settles O32: the values the formats read are those that are not reserved. -/
theorem reservedValuesRejected : Obligations.ReservedValuesRejected :=
  ⟨fun _ _ _ _ _ => request_decodes_iff, fun _ _ _ _ => response_decodes_iff, fun _ _ _ _ => command_decodes_iff, wire_decodes⟩

end Sys2Proof.Machine
end

section
/-! SUPPORT. The step over what arrives, decoded or not (30_encoding R101 to R106), and the refusals of the commands (R103). -/

namespace Sys2Proof.Machine

variable {k : Nat} {r : TransferRequest} {e : Stimulus} {i : Instr} {rest : List Stimulus} {s : State}

/-! ### The request channel -/

/-- PR1 takes a message that finds room (42 R172). -/
theorem offer_of_room (hk : k < s.par.nProducers) (h : s.reqch.length < s.par.reqCap) : offer k r s = accept k r s := by
  rw [offer, if_pos ((producer_iff k s).2 hk), if_pos ((hasRoom_iff s).2 h)]

/-- PR2 takes a message that finds the channel full (42 R173). -/
theorem offer_of_full (hk : k < s.par.nProducers) (h : s.reqch.length = s.par.reqCap) : offer k r s = reject k r s := by
  have hroom : ¬hasRoom s = true := by rw [hasRoom_iff]; omega
  rw [offer, if_pos ((producer_iff k s).2 hk), if_neg hroom, if_pos ((isFull_iff s).2 h)]

/-- Neither takes a message from an index that is no producer, or in a channel above its capacity (A25). -/
theorem offer_of_neither (h : s.par.nProducers ≤ k ∨ s.par.reqCap < s.reqch.length) : offer k r s = s := by
  obtain ⟨hk, hroom, -⟩ | ⟨hk, hfull, -⟩ | he := offer_cases k r s
  · rw [producer_iff] at hk
    rw [hasRoom_iff] at hroom
    omega
  · rw [producer_iff] at hk
    rw [isFull_iff] at hfull
    omega
  · exact he

/-! ### The step -/

/-- A move that decodes is run (A1). -/
theorem step_decoded (hr : s.refused = false) (ha : s.agenda = e :: rest) (hd : decode e = .ok i) :
    step s = exec i { s with agenda := rest } := by
  simp [step, hr, fetch, ha, hd]

/-- A move that does not decode is offered or refused (A15). -/
theorem step_undecoded (hr : s.refused = false) (ha : s.agenda = e :: rest) (hd : ∀ i, decode e ≠ .ok i) :
    step s = .next (undecoded e { s with agenda := rest }) := by
  cases he : decode e with
  | ok i => exact absurd he (hd i)
  | error x => simp [step, hr, fetch, ha, he]

/-- A request record is offered to the channel, whether or not it decodes (30_encoding R101, 42 R172). -/
theorem step_request {bytes : List Byte} (hr : s.refused = false) (ha : s.agenda = .message (.request k) bytes :: rest)
    (hb : requestOfBytes bytes = some r) : step s = .next (offer k r { s with agenda := rest }) := by
  by_cases hd : ∃ i, decode (.message (.request k) bytes) = .ok i
  · obtain ⟨i, hi⟩ := hd
    rw [step_decoded hr ha hi]
    obtain ⟨a, n, p, -, ⟨rfl, rfl⟩ | ⟨rfl, rfl⟩⟩ := decode_request_ok.1 hi <;>
    · cases (requestOfBytes_record _ a n p).symm.trans hb
      rfl
  · rw [step_undecoded hr ha (not_exists.1 hd), undecoded, hb]

/-- Outside the request channel a move that does not decode is refused (30_encoding R102, R103, R105). -/
theorem undecoded_of_not_request (h : ∀ k bytes, e ≠ .message (.request k) bytes) : undecoded e s = refuse s := by
  unfold undecoded
  split
  next k bytes => exact absurd rfl (h k bytes)
  · rfl

/-- A REQ message decodes only with its 19 bytes (30_encoding R90). -/
theorem length_of_decode_request {bytes : List Byte} (h : decode (.message (.request k) bytes) = .ok i) : bytes.length = 19 := by
  obtain ⟨a, n, p, -, ⟨rfl, -⟩ | ⟨rfl, -⟩⟩ := decode_request_ok.1 h <;> simp

/-- A REQ message of another length is refused (30_encoding R105). -/
theorem step_request_wrongLength {bytes : List Byte} (hr : s.refused = false)
    (ha : s.agenda = .message (.request k) bytes :: rest) (hlen : bytes.length ≠ 19) :
    step s = .next (refuse { s with agenda := rest }) := by
  rw [step_undecoded hr ha (fun _ hd => hlen (length_of_decode_request hd)), undecoded, requestOfBytes_wrongLength hlen]

/-! ### Refusals -/

/-- Setting the sticky mark refuses the situation (30_encoding R104). -/
theorem isRefused_refuse (s : State) : IsRefused s (.next (refuse s)) := ⟨refuse s, rfl, rfl, rfl, rfl, rfl⟩

/-- An operation whose `pre` fails is refused (30_encoding R103). -/
theorem isRefused_orRefuse {o : Option State} (h : ∀ t, o ≠ some t) : IsRefused s (.next (orRefuse s o)) := by
  rw [Option.eq_none_iff_forall_ne_some.2 h]
  exact isRefused_refuse s

/-- BW1 without INIT or with a command open (30_encoding R103). -/
theorem bw1_refused (a : Byte) (h : s.bpd.inited = false ∨ s.bpd.pc ≠ .ready) :
    IsRefused s (exec (.cmdBeginWrite (.bw1 a)) s) := by
  refine isRefused_orRefuse fun t ht => ?_
  obtain ⟨hi, hpc, -⟩ := beginWriteStart_some.1 ht
  simp [hi, hpc] at h

/-- BR1 without INIT, with a command open or with a reserved size (30_encoding R103). -/
theorem br1_refused (a : Byte) {n : Byte} (h : (s.bpd.inited = false ∨ s.bpd.pc ≠ .ready) ∨ n.toNat = 0 ∨ 16 < n.toNat) :
    IsRefused s (exec (.cmdBeginRead (.br1 a n)) s) := by
  refine isRefused_orRefuse fun t ht => ?_
  obtain ⟨hi, hpc, c, hc, -⟩ := beginReadStart_some.1 ht
  obtain ⟨hpos, hle, -⟩ := operandCount_some.1 hc
  simp [hi, hpc] at h
  omega

/-- ET1 without INIT or with no command open (30_encoding R103). -/
theorem et1_refused (h : s.bpd.inited = false ∨ s.bpd.pc = .ready) : IsRefused s (exec .cmdEnd s) := by
  refine isRefused_orRefuse fun t ht => ?_
  obtain ⟨hi, hpc, -⟩ := endTransaction_some.1 ht
  simp [hi, hpc] at h

/-- INIT a second time, or with a configuration that is not admitted (30_encoding R103). -/
theorem in1_refused {c : CfgRecord} (h : s.bpd.inited = true ∨ cfgAccepted c = false) : IsRefused s (exec (.cmdInit c) s) := by
  rw [exec, execCmdInit, if_pos (by simpa using h)]
  exact isRefused_refuse s

end Sys2Proof.Machine
end

section
/-! PROOFS. The step over what arrives, the rows with a message format, the refusals (30_encoding R95 to R106). -/

namespace Sys2Proof.Machine

/-- Settles O33: no effect clears the mark, and the step looks at it first. -/
theorem refusedSticks : Obligations.RefusedSticks := by
  refine ⟨fun i s t he hr => ?_, fun s => step_refused⟩
  cases exec_effect i s t he with
  | refuse => rfl
  | _ => simp [hr]

/-- Settles O28: the laws of the step, one for each way the next move can read. -/
theorem stepRunsDecodedMove : Obligations.StepRunsDecodedMove := by
  intro e rest s hr
  refine ⟨fun ha i => step_decoded hr ha, fun ha hd hreq => ?other, fun k kind a n p ha => ?request,
    fun k bytes => step_request_wrongLength hr, step_rest hr⟩
  case other =>
    rw [step_undecoded hr ha hd, undecoded_of_not_request hreq]
    rfl
  case request =>
    rw [step_request hr ha (requestOfBytes_record kind a n p)]
    exact ⟨fun hk h => congrArg _ (offer_of_room hk h), fun hk h => congrArg _ (offer_of_full hk h),
      fun h => congrArg _ (offer_of_neither h)⟩

/-- Settles O14: both rows offer their record. -/
theorem requestMessagesOffered : Obligations.RequestMessagesOffered := by
  intro k a n p s hk
  exact ⟨fun h => ⟨congrArg _ (offer_of_room hk h), congrArg _ (offer_of_room hk h)⟩,
    fun h => ⟨congrArg _ (offer_of_full hk h), congrArg _ (offer_of_full hk h)⟩⟩

/-- Settles O8, command by command. -/
theorem commandRefusals : Obligations.CommandRefusals := by
  intro c op a n rest s
  refine ⟨fun hop hr ha => ?reserved, fun h => in1_refused ?init, fun h => ⟨bw1_refused a h, br1_refused a (.inl h)⟩,
    fun h => br1_refused a (.inr h), et1_refused⟩
  case reserved =>
    have hd : ∀ i, decode (.command [op, a, n] c) ≠ .ok i := fun i hi => by
      obtain ⟨hle, -⟩ := command_decodes_iff.1 ⟨i, hi⟩
      omega
    rw [step_undecoded hr ha hd]
    exact isRefused_refuse { s with agenda := rest }
  case init =>
    refine h.imp_right fun hc => Bool.eq_false_iff.2 fun hacc => ?_
    obtain ⟨hs, haf, hdf⟩ := (cfgAccepted_iff c).1 hacc
    simp [hs, haf, hdf] at hc

/-- Settles O5: bit 0 and bit 7 have laws of their own; the rest is checked byte by byte. -/
theorem addressByteAssembly : Obligations.AddressByteAssembly := by
  intro a8 dir
  refine ⟨?value, ?masked, ?shifted, wireByte_getElem_zero a8 dir, wireByte_bit7 a8 dir⟩
  all_goals cases dir <;> revert a8 <;> decide

/-- BW3 and BR3 write the seven bits of the command's address above its direction bit (30_encoding R96). -/
theorem writeAddressByte_eq (next : BpdPc) (s : State) : writeAddressByte next s = { s with
    dr := s.bpd.a.extractLsb' 0 7 ++ BitVec.ofBool s.bpd.rw, sr.startSent := false, hid.addrPending := true, bpd.pc := next } := rfl

/-- Settles O6: a WA row is BW3 or BR3 with a comparison of the address in its `pre`. -/
theorem wireAddressRows : Obligations.WireAddressRows := by
  intro a s
  refine ⟨decode_wire_ok.2 ⟨a, .inl ⟨rfl, rfl⟩⟩, decode_wire_ok.2 ⟨a, .inr ⟨rfl, rfl⟩⟩, ?write, ?read,
    fun hne => ⟨stepWhen_of_not ?writeOther hne, stepWhen_of_not ?readOther hne⟩⟩
  case write =>
    rintro hpc hrw hg rfl
    rw [exec, execWaWrite, stepWhen_of (by simp [hpc, hrw, hg, deviceAddress7]), writeAddressByte_eq, hrw]
    rfl
  case read =>
    rintro hpc hrw hg rfl
    rw [exec, execWaRead, stepWhen_of (by simp [hpc, hrw, hg, deviceAddress7]), writeAddressByte_eq, hrw]
    rfl
  all_goals simp [deviceAddress7]

end Sys2Proof.Machine
end

section
/-! SUPPORT. What the EEPROM stores (95 section 5, F-3): bytes written one after the other stand from the pointer on. -/

namespace Sys2Proof.Machine

/-- The target's memory after the bytes `data` are written to it from address `a` on. -/
def Memory.writeFrom : List Host.Cell → Nat → List Byte → List Host.Cell
  | m, _, [] => m
  | m, a, v :: data => Memory.writeFrom (Memory.write m a v) (a + 1) data

variable {m : List Host.Cell} {a : Nat} {data : List Byte}

theorem Memory.writeFrom_wf (hm : Memory.wf m = true) : Memory.wf (Memory.writeFrom m a data) = true := by
  induction data generalizing m a with
  | nil => exact hm
  | cons v data ih => exact ih (Memory.write_wf hm)

theorem Memory.read_writeFrom_other {a' : Nat} (hm : Memory.wf m = true) (h : ¬(a ≤ a' ∧ a' < a + data.length)) :
    Memory.read (Memory.writeFrom m a data) a' = Memory.read m a' := by
  induction data generalizing m a with
  | nil => rfl
  | cons v data ih =>
    rw [List.length_cons] at h
    rw [Memory.writeFrom, ih (Memory.write_wf hm) (by omega), Memory.read_write_other (by omega) hm]

theorem Memory.read_writeFrom {i : Nat} (hm : Memory.wf m = true) (h : i < data.length) :
    Memory.read (Memory.writeFrom m a data) (a + i) = data.getD i 0 := by
  induction data generalizing m a i with
  | nil => contradiction
  | cons v data ih =>
    cases i with
    | zero =>
      rw [Memory.writeFrom, Memory.read_writeFrom_other (Memory.write_wf hm) (by omega)]
      exact Memory.read_write_same hm
    | succ i =>
      rw [Memory.writeFrom, show a + (i + 1) = a + 1 + i by omega]
      exact ih (Memory.write_wf hm) (Nat.lt_of_succ_lt_succ h)

variable {e : Eeprom} {off : BitVec 9}

/-- Before the end of its page the pointer moves on by one (F-3). -/
theorem Eeprom.toNat_nextInPage {ptr : BitVec 9} (h : ptr.toNat % 16 + 1 < 16) :
    (Eeprom.nextInPage ptr).toNat = ptr.toNat + 1 := by
  revert h; revert ptr; decide

/-- F-3: bytes that stay inside the page are stored from the pointer on. -/
theorem Eeprom.foldl_onEvent_wr (hfirst : e.first = false) (hpage : e.ptr.toNat % 16 + data.length ≤ 16) :
    ((data.map fun b => WireEvent.wr b .ack).foldl Eeprom.onEvent e).base = e.base ∧
    ((data.map fun b => WireEvent.wr b .ack).foldl Eeprom.onEvent e).mem = Memory.writeFrom e.mem e.ptr.toNat data := by
  induction data generalizing e with
  | nil => exact ⟨rfl, rfl⟩
  | cons b data ih =>
    rw [List.length_cons] at hpage
    have hevent : e.onEvent (.wr b .ack) =
        { e with mem := Memory.write e.mem e.ptr.toNat b, ptr := Eeprom.nextInPage e.ptr } := by
      simp [Eeprom.onEvent, hfirst]
    rw [List.map_cons, List.foldl_cons, hevent, Memory.writeFrom]
    cases data with
    | nil => exact ⟨rfl, rfl⟩
    | cons b' data =>
      rw [List.length_cons] at hpage ih
      have hptr := Eeprom.toNat_nextInPage (ptr := e.ptr) (by omega)
      rw [← hptr]
      exact ih hfirst (by dsimp only; omega)

/-- F-3: the target acknowledges every byte. -/
theorem Eeprom.givesAll_wr : e.GivesAll (data.map fun b => .wr b .ack) := by
  induction data generalizing e with
  | nil => trivial
  | cons b data ih => exact ⟨rfl, ih⟩

/-- The first bytes of EEWR's payload are the low offset byte and the data (30 R107). -/
theorem firstBytes_eewr (hlen : data.length ≤ 15) :
    firstBytes (data.length + 1) (eewrRequest e off data).payload = off.extractLsb' 0 8 :: data := by
  refine List.ext_getElem (by simp [firstBytes]; omega) fun i _ hi => ?_
  cases i with
  | zero => simp [firstBytes, eewrRequest]
  | succ i => simp [firstBytes, eewrRequest, List.getElem?_eq_getElem (Nat.lt_of_succ_lt_succ hi)]

theorem eewrRequest_length (hlen : data.length ≤ 15) : (eewrRequest e off data).length.toNat = data.length + 1 :=
  Nat.mod_eq_of_lt (by omega)

theorem eewrRequest_admitted (hlen : data.length ≤ 15) : admitted (eewrRequest e off data) = true :=
  (admitted_iff _).2 ⟨.inl rfl, by rw [eewrRequest_length hlen]; omega⟩

/-- The wire events of EEWR are those of EESET with the data before the stop (30 R107). -/
theorem writeFrame_eewr (hlen : data.length ≤ 15) : writeFrame (eewrRequest e off data) =
    .start :: .addr (wireByte (e.deviceFor off) false) .ack :: .wr (off.extractLsb' 0 8) .ack ::
      (data.map (fun b => .wr b .ack) ++ [.stop]) := by
  rw [writeFrame, eewrRequest_length hlen, firstBytes_eewr hlen]
  rfl

/-- `EEWR off, data` inside a page is given by the target, which stores the data from `off` on (F-2, F-3). -/
theorem Eeprom.eewr_frame (hbase : e.base.getLsbD 0 = false) (hlen : data.length ≤ 15)
    (hpage : off.toNat % 16 + data.length ≤ 16) :
    e.GivesAll (writeFrame (eewrRequest e off data)) ∧
    ((writeFrame (eewrRequest e off data)).foldl Eeprom.onEvent e).base = e.base ∧
    ((writeFrame (eewrRequest e off data)).foldl Eeprom.onEvent e).mem = Memory.writeFrom e.mem off.toNat data := by
  obtain ⟨⟨hstart, haddr, hlow, -⟩, hframe⟩ := Eeprom.eeset_frame (off := off) hbase
  have hset : ((e.onEvent .start).onEvent (.addr (wireByte (e.deviceFor off) false) .ack)).onEvent
      (.wr (off.extractLsb' 0 8) .ack) = { e with ptr := off, first := false } := hframe
  rw [writeFrame_eewr hlen, List.foldl_cons, List.foldl_cons, List.foldl_cons, hset, List.foldl_append]
  refine ⟨⟨hstart, haddr, hlow, ?_⟩, foldl_onEvent_wr rfl hpage⟩
  exact givesAll_append.2 ⟨givesAll_wr, trivial, trivial⟩

end Sys2Proof.Machine
end

section
/-! PROOFS. EEWR (30_encoding R107) under the fixture of 95 section 5. -/

namespace Sys2Proof.Machine

/-- Settles O60: EEWR is one Write, whose bytes after the first the target stores. -/
theorem eepromWriteStores : Obligations.EepromWriteStores := by
  rintro k off data rest ⟨s, e⟩ h hbase hmem hlen hpage ha
  dsimp only at h hbase hmem ha ⊢
  obtain ⟨t, q, hpath, hserved, -⟩ := h.writePath (r := eewrRequest e off data) rfl (eewrRequest_admitted hlen) ha
  obtain ⟨hgives, hbase', hmem'⟩ := Eeprom.eewr_frame hbase hlen hpage
  refine ⟨_, hpath.bench_run hgives, hpath.agenda_rest ha, hserved.ready, hbase', ?_⟩
  rw [hmem']
  exact ⟨Memory.writeFrom_wf hmem, fun _ hi => Memory.read_writeFrom hmem hi, fun _ => Memory.read_writeFrom_other hmem⟩

end Sys2Proof.Machine
end

section
/-! SUPPORT. The command words and the steps of the BPD, each with its effect where its `pre` is true (40 R121 to R124). -/

namespace Sys2Proof.Machine

variable {s : State}

/-- IN1 stores the configuration (40 R121). -/
theorem exec_configures {c : CfgRecord} (hc : cfgAccepted c = true) (hi : s.bpd.inited = false) (hpc : s.bpd.pc = .ready)
    (hts : s.ts.pc = .tsWait) : exec (.cmdInit c) s = .next (configure c s) := by
  have hnot : ¬(s.bpd.inited || !cfgAccepted c) = true := by rw [hi, hc]; decide
  rw [exec, execCmdInit, if_neg hnot, stepWhen_of (by rw [hpc, hts]; rfl)]

/-- BW1 opens a write (40 R122). -/
theorem exec_opensWrite (a : Byte) (hi : s.bpd.inited = true) (hpc : s.bpd.pc = .ready) :
    exec (.cmdBeginWrite (.bw1 a)) s = .next { s with bpd.rw := false, bpd.a := a, bpd.pc := .wSb, ctl.start := true } := by
  rw [exec, execCmdBeginWrite, beginWriteStart_some.2 ⟨hi, hpc, rfl⟩, orRefuse_some]

/-- BR1 opens a read (40 R123). -/
theorem exec_opensRead (a : Byte) {n : Byte} {c : Count} (hi : s.bpd.inited = true) (hpc : s.bpd.pc = .ready)
    (hc : operandCount n = some c) :
    exec (.cmdBeginRead (.br1 a n)) s = .next { s with
      bpd.rw := true, bpd.a := a, bpd.size := c, bpd.pc := .wSb, hid.rxClosed := false, ctl.start := true } := by
  rw [exec, execCmdBeginRead, beginReadStart_some.2 ⟨hi, hpc, c, hc, rfl⟩, orRefuse_some]

/-- ET1 ends the transaction (40 R124). -/
theorem exec_ends (hi : s.bpd.inited = true) (hpc : s.bpd.pc ≠ .ready) :
    exec .cmdEnd s = .next { s with ctl.stop := true, ctl.start := false, bpd.pc := .ready } := by
  rw [exec, execCmdEnd, endTransaction_some.2 ⟨hi, hpc, rfl⟩, orRefuse_some]

/-- When TS issues ET1 no stop is requested: one is only at rest or with a start pending (40 R124). -/
theorem CoreInv.stop_false_of_finish (h : CoreInv s) (hts : s.ts.pc = .tsFinish) : s.ctl.stop = false := by
  refine Bool.eq_false_iff.2 fun hstop => ?_
  obtain ⟨-, hrest | ⟨haddr, -⟩⟩ := h.stopBit hstop
  · exact not_atRest_iff.2 (.inr (.inr hts)) hrest
  · simp [hts] at haddr

end Sys2Proof.Machine
end

section
/-! PROOFS. The driver's commands, step by step, and its acknowledge bit (40 R121 to R124, R128). -/

namespace Sys2Proof.Machine

/-- Settles O43: BR5 sets the bit before BR6 opens the data phase, and nothing writes it or the size until the command ends. -/
theorem acknowledgeBitBeforeData : Obligations.AcknowledgeBitBeforeData := by
  intro s hreach hok hpc
  have hack := (hreach.coreInv hok).ackBit (.inr hpc)
  simp [hack, ackBit]

/-- Settles O4: the effect and the refusal are ET1's, the bit in TS_FINISH is the invariant's. -/
theorem endRequestsStop : Obligations.EndRequestsStop :=
  ⟨fun _ _ _ => rfl, fun _ hreach hok => (hreach.coreInv hok).stop_false_of_finish,
    fun _ => ⟨exec_ends, fun hpc => et1_refused (.inr hpc)⟩⟩

/-- Settles O1: the word and the step look at the same three values of the CFG record; the refusals are R103's. -/
theorem initStoresConfiguration : Obligations.InitStoresConfiguration := by
  intro c a z s
  obtain ⟨-, hrefused, -⟩ := commandRefusals c 0x00#8 a z [] s
  refine ⟨fun hs ha hd => ?word, fun hs ha hd => ?effect, hrefused⟩
  case word => exact decode_command_ok.2 ⟨a, z, .inl ⟨rfl, (cfgAdmitted_iff c).2 ⟨hs, ha, hd⟩, rfl⟩⟩
  case effect => exact exec_configures ((cfgAccepted_iff c).2 ⟨hs, ha, hd⟩)

/-- Settles O2: BW2 and BW3 differ from BR2 and BR3 in the direction only, and have a lemma with them. -/
theorem beginWriteSteps : Obligations.BeginWriteSteps := by
  refine ⟨fun _ _ _ => rfl, fun a s => ⟨exec_opensWrite a, exec_seesStart (read := false), ?bw3, ?bw4⟩⟩
  case bw3 =>
    intro hpc hrw hg
    refine (exec_writesAddress (read := false) hpc hrw hg).trans ?_
    rw [writeAddressByte_eq, hrw]
    rfl
  case bw4 =>
    intro hpc hacked hm hg
    exact stepWhen_of (by simp [hpc, hacked, hm, hg])

/-- Settles O3: BR2 and BR3 differ from BW2 and BW3 in the direction only, and have a lemma with them. -/
theorem beginReadSteps : Obligations.BeginReadSteps := by
  refine ⟨fun a n c hpos hle => ?word, fun a n size s => ⟨?br1, fun _ _ hn => br1_refused a (.inr hn),
    exec_seesStart (read := true), ?br3, ?br4, ?br5, ?br6⟩⟩
  case word =>
    exact decode_command_ok.2 ⟨a, n, .inr (.inr (.inl ⟨rfl, (lengthAdmitted_iff n).2 ⟨hpos, hle⟩, rfl⟩))⟩
  case br1 =>
    intro hi hpc hpos hsize
    exact exec_opensRead a hi hpc (operandCount_some.2 ⟨hpos, by omega, hsize⟩)
  case br3 =>
    intro hpc hrw hg
    refine (exec_writesAddress (read := true) hpc hrw hg).trans ?_
    rw [writeAddressByte_eq, hrw]
    rfl
  case br4 =>
    intro hpc hacked hg
    exact stepWhen_of (by simp [hpc, hacked, hg])
  case br5 =>
    intro hpc hg
    exact stepWhen_of (by simp [hpc, hg])
  case br6 =>
    intro hpc hm hg
    exact stepWhen_of (by simp [hpc, hm, hg])

end Sys2Proof.Machine
end

section
/-! SUPPORT. A block that waits with ENV silent (40 R125, 43 R219): its BPD and TS have no enabled step, and what producers do leaves the
service of the request as it was. -/

namespace Sys2Proof.Machine

variable {s t u : State} {i : Instr}

/-! ### What producers leave as it was -/

/-- The service of the request and the wire stand as they were, and so do the responses given or waiting. -/
structure SameService (s t : State) : Prop where
  ts : t.ts = s.ts
  bpd : t.bpd = s.bpd
  bte : t.bte = s.bte
  sr : t.sr = s.sr
  trace : t.trace = s.trace
  responses : receivedResponses t.told ++ t.rspch = receivedResponses s.told ++ s.rspch

namespace SameService

theorem refl (s : State) : SameService s s := ⟨rfl, rfl, rfl, rfl, rfl, rfl⟩

theorem trans (h : SameService s t) (h' : SameService t u) : SameService s u :=
  ⟨h'.ts.trans h.ts, h'.bpd.trans h.bpd, h'.bte.trans h.bte, h'.sr.trans h.sr, h'.trace.trans h.trace,
    h'.responses.trans h.responses⟩

/-- A refused situation has no other effect (30_encoding R104). -/
theorem refuse (s : State) : SameService s (refuse s) := ⟨rfl, rfl, rfl, rfl, rfl, rfl⟩

/-- PR1 (42 R172). -/
theorem accept (k : Nat) (r : TransferRequest) (s : State) : SameService s (accept k r s) :=
  ⟨rfl, rfl, rfl, rfl, rfl, by simp⟩

/-- PR2 (42 R173). -/
theorem reject (k : Nat) (r : TransferRequest) (s : State) : SameService s (reject k r s) :=
  ⟨rfl, rfl, rfl, rfl, rfl, by simp⟩

/-- PR3: the response that leaves the channel is the one given (42 R174). -/
theorem give {q : TransferResponse} {rest : List TransferResponse} (k : Nat) (hq : s.rspch = q :: rest) :
    SameService s (tell (.received k q) { s with rspch := rest }) :=
  ⟨rfl, rfl, rfl, rfl, rfl, by simp [hq]⟩

theorem offer (k : Nat) (r : TransferRequest) (s : State) : SameService s (offer k r s) := by
  obtain ⟨-, -, he⟩ | ⟨-, -, he⟩ | he := offer_cases k r s <;> rw [he]
  · exact accept k r s
  · exact reject k r s
  · exact refl s

theorem undecoded (e : Stimulus) (s : State) : SameService s (undecoded e s) := by
  obtain he | ⟨k, r, he⟩ := undecoded_cases e s <;> rw [he]
  · exact refuse s
  · exact offer k r s

/-- A producer's step while a request is in service: INIT, the one that could reach the BPD, needs TS_WAIT (40 R121). -/
theorem exec_prod (hi : agentOf i = .prod) (hts : s.ts.pc ≠ .tsWait) (he : exec i s = .next t) : SameService s t := by
  cases exec_effect i s t he with
  | same => exact refl s
  | refuse => exact refuse s
  | offerWrite | offerRead | enq => exact accept _ _ s
  | rejectWrite | rejectRead | enqReject => exact reject _ _ s
  | takeSuccess _ _ _ _ _ hq | takeError _ _ _ _ _ hq | recv _ _ _ hq => exact give _ hq
  | init c =>
    obtain ht | ht | ⟨-, -, -, hwait, -⟩ := execCmdInit_cases he
    · exact ht ▸ refl s
    · exact ht ▸ refuse s
    · exact absurd hwait hts
  | _ => simp [agentOf, BeginWriteStep.isFirst, BeginReadStep.isFirst] at hi

end SameService

/-! ### Waits -/

/-- A BPD that waits for an unset flag wherever its guard holds has no enabled step (40 R125). -/
theorem exec_bpd_waits (hi : agentOf i = .bpd) (h : GuardG s → bpdWaits s = true) : exec i s = .next s := by
  obtain ⟨bw2, bw3, bw4, br2, br3, br4, br5, br6, -⟩ := driverWaits .sample s
  cases i with
  | cmdBeginWrite st =>
    cases st with
    | bw1 => simp [agentOf, BeginWriteStep.isFirst] at hi
    | bw2 => exact bw2 fun ⟨hpc, _, hsent, hg⟩ => by simpa [bpdWaits, hpc, hsent] using h hg
    | bw3 =>
      obtain ⟨bw3, -⟩ := bw3 fun ⟨hpc, _, hg⟩ => by simpa [bpdWaits, hpc] using h hg
      exact bw3
    | bw4 => exact bw4 fun ⟨hpc, hacked, hm, hg⟩ => by simpa [bpdWaits, hpc, hacked, hm] using h hg
  | cmdBeginRead st =>
    cases st with
    | br1 => simp [agentOf, BeginReadStep.isFirst] at hi
    | br2 => exact br2 fun ⟨hpc, _, hsent, hg⟩ => by simpa [bpdWaits, hpc, hsent] using h hg
    | br3 =>
      obtain ⟨br3, -⟩ := br3 fun ⟨hpc, _, hg⟩ => by simpa [bpdWaits, hpc] using h hg
      exact br3
    | br4 => exact br4 fun ⟨hpc, hacked, hg⟩ => by simpa [bpdWaits, hpc, hacked] using h hg
    | br5 => exact br5 fun ⟨hpc, hg⟩ => by simpa [bpdWaits, hpc] using h hg
    | br6 => exact br6 fun ⟨hpc, hm, hg⟩ => by simpa [bpdWaits, hpc, hm] using h hg
  | waWrite a =>
    obtain ⟨-, wa⟩ := bw3 fun ⟨hpc, _, hg⟩ => by simpa [bpdWaits, hpc] using h hg
    exact wa a
  | waRead a =>
    obtain ⟨-, wa⟩ := br3 fun ⟨hpc, _, hg⟩ => by simpa [bpdWaits, hpc] using h hg
    exact wa a
  | _ => simp [agentOf] at hi

/-- The BPD waits for a flag, or a data phase is incomplete, and no fault flag is set. -/
def Stuck (s : State) : Prop := BpdStuck s ∨ DataStuck s

namespace Stuck

theorem noFault (h : Stuck s) : NoFault s := by
  obtain ⟨-, hf, -⟩ | ⟨-, hf, -⟩ := h <;> exact hf

/-- A request is in service, its outcome still open. -/
theorem ts_pc (h : Stuck s) : s.ts.pc = .tsAddr ∨ s.ts.pc = .tsData := by
  obtain ⟨hts, -⟩ | ⟨hts, -⟩ := h
  · exact .inl hts
  · exact .inr hts

/-- In the address phase the BPD waits. -/
theorem bpdWaits (h : Stuck s) (hts : s.ts.pc = .tsAddr) : bpdWaits s = true := by
  obtain ⟨-, -, hw⟩ | ⟨hdata, -⟩ := h
  · exact hw
  · simp [hts] at hdata

/-- A data phase that is open is not complete. -/
theorem idx_ne (h : Stuck s) (hts : s.ts.pc = .tsData) : s.bte.idx ≠ s.bte.n := by
  obtain ⟨haddr, -⟩ | ⟨-, -, hidx⟩ := h
  · simp [hts] at haddr
  · exact hidx

/-- Being stuck is a matter of the service alone. -/
theorem of_sameService (h : Stuck s) (hst : SameService s t) : Stuck t := by
  obtain ⟨hts, hbpd, hbte, hsr, -, -⟩ := hst
  simpa only [Stuck, BpdStuck, DataStuck, NoFault, Machine.bpdWaits, hts, hbpd, hbte, hsr] using h

/-- TS has no enabled step: no fault is there to see and no phase is complete (42 R177 to R184). -/
theorem exec_ts_waits (h : Stuck s) (hi : agentOf i = .ts) (hinner : innerStep i = false) : exec i s = .next s := by
  have hts := h.ts_pc
  obtain ⟨dequeue, addrDone, addrFault, dataDone, dataFault, finish, put, -⟩ := otherAgentsWait 0 zeroRequest .ack 0 s
  cases i with
  | tsDequeue => exact dequeue fun ⟨hwait, _⟩ => by simp [hwait] at hts
  | tsAddrDone =>
    refine addrDone fun ⟨haddr, hdata, _⟩ => ?_
    have hw := h.bpdWaits haddr
    rcases hdata with hpc | hpc <;> simp [Machine.bpdWaits, hpc] at hw
  | tsAddrFault => exact addrFault fun ⟨_, hf, _⟩ => hf h.noFault
  | tsDataDone => exact dataDone fun ⟨hdata, hidx, _⟩ => h.idx_ne hdata hidx
  | tsDataFault => exact dataFault fun ⟨_, hf⟩ => hf h.noFault
  | tsFinish => exact finish fun hfin => by simp [hfin] at hts
  | tsPut => exact put fun ⟨hresp, _⟩ => by simp [hresp] at hts
  | cmdBeginWrite st | cmdBeginRead st => simp_all [agentOf, innerStep]
  | _ => simp [agentOf, innerStep] at hi hinner

/-- With ENV silent no instruction touches the service. -/
theorem exec_sameService (h : Stuck s) (henv : agentOf i ≠ .env) (hbte : agentOf i ≠ .bte) (hinner : innerStep i = false)
    (he : exec i s = .next t) : SameService s t := by
  have of_waits (hw : exec i s = .next s) : SameService s t := Host.Outcome.next.inj (hw.symm.trans he) ▸ .refl s
  cases ha : agentOf i with
  | prod => exact .exec_prod ha (fun hts => by simpa [hts] using h.ts_pc) he
  | ts => exact of_waits (h.exec_ts_waits ha hinner)
  | bpd => exact of_waits (exec_bpd_waits ha fun ⟨hts, _⟩ => h.bpdWaits hts)
  | bte => exact absurd ha hbte
  | env => exact absurd ha henv

/-- With ENV silent no step touches the service. -/
theorem step_sameService (h : Stuck s) (hn : NoEnvMoves s.agenda) (hs : step s = .next t) :
    SameService s t ∧ NoEnvMoves t.agenda := by
  obtain ⟨-, ⟨-, rfl⟩ | ⟨e, rest, ha, hcase⟩⟩ := step_cases hs
  · exact ⟨.refl _, hn⟩
  rw [ha] at hn
  have hrest : NoEnvMoves rest := fun x hx => hn x (.tail _ hx)
  have hfetch : SameService s { s with agenda := rest } := ⟨rfl, rfl, rfl, rfl, rfl, rfl⟩
  obtain ⟨i, hd, he⟩ | ⟨-, rfl⟩ := hcase
  · obtain ⟨henv, hbte, hinner⟩ := hn e (.head _) i hd
    rw [exec_agenda he]
    exact ⟨hfetch.trans ((h.of_sameService hfetch).exec_sameService henv hbte hinner he), hrest⟩
  · rw [undecoded_agenda]
    exact ⟨hfetch.trans (.undecoded e _), hrest⟩

end Stuck

/-! ### Runs -/

/-- What every step keeps, a run keeps. -/
theorem run_keeps {P : State → Prop} (keep : ∀ s t, P s → step s = .next t → P t) {n : Nat} (hs : P s)
    (h : Sys2Proof.core.run n s = .next t) : P t := by
  induction n generalizing s with
  | zero =>
    obtain rfl := Host.Outcome.next.inj h
    exact hs
  | succ n ih =>
    simp only [Host.Core.run] at h
    split at h
    next u hu => exact ih (keep s u hs hu) h
    · simp at h
    · simp at h

end Sys2Proof.Machine
end

section
/-! PROOFS. A wedged bus (40 R125, 43 R219). -/

namespace Sys2Proof.Machine

/-- Settles O51, by induction on the run: each step leaves the service as it was, so the state after it is stuck as the first was. -/
theorem wedgedBusHangs : Obligations.WedgedBusHangs := by
  intro n s t (hstuck : Stuck s) hn hrun
  have hkept : SameService s t ∧ NoEnvMoves t.agenda := by
    refine run_keeps (P := fun u => SameService s u ∧ NoEnvMoves u.agenda) ?_ ⟨.refl s, hn⟩ hrun
    intro u v ⟨hsame, hnu⟩ hs
    obtain ⟨hstep, hnv⟩ := (hstuck.of_sameService hsame).step_sameService hnu hs
    exact ⟨hsame.trans hstep, hnv⟩
  obtain ⟨⟨hts, hbpd, hbte, -, htrace, hresp⟩, -⟩ := hkept
  exact ⟨hts, hbpd, hbte, htrace, hresp⟩

end Sys2Proof.Machine
end

section
/-! SUPPORT. The counting law (41 R157) as an invariant: what the request in service has put on the wire so far, in the address phase and
in the data phase, and that every step an agent may take keeps it. -/

namespace Sys2Proof.Machine

variable {s t : State} {i : Instr}

/-! ### The data events, byte by byte -/

/-- Before the first byte there are none. -/
theorem dataEvents_of_idx_zero (h : s.bte.idx = 0) : dataEvents s = [] := by
  simp [dataEvents, h, firstBytes]

/-- DP1 with ACK counts the byte it sent (41 R153). -/
theorem dataEvents_sendByte {j : Fin 16} (hdir : s.bte.dir = false) (hj : j.val = s.bte.idx.val) :
    dataEvents (sendByte j .ack s) = dataEvents s ++ [.wr s.bte.buf[j] .ack] := by
  simp [dataEvents, hdir, firstBytes, ← hj, List.take_add_one]

/-- DP2 counts the byte it received (41 R154). -/
theorem dataEvents_takeByte {j : Fin 16} (b : Byte) (hdir : s.bte.dir = true) (hj : j.val = s.bte.idx.val) :
    dataEvents (takeByte j b s) = dataEvents s ++ [.rd b (if j.val + 1 = s.bte.n.val then .nack else .ack)] := by
  have hbefore : ∀ m ∈ List.range j.val, (s.bte.buf.set j b).toList.getD m 0 = s.bte.buf.toList.getD m 0 := by
    intro m hm
    have hne : j.val ≠ m := by have := List.mem_range.1 hm; omega
    simp [List.getD, Vector.toList_set, List.getElem?_set_ne hne]
  simp only [dataEvents, takeByte_bte, hdir, ↓reduceIte, Fin.val_succ, ← hj, List.range_succ, List.map_append, List.map_cons,
    List.map_nil]
  rw [List.map_congr_left fun m hm => by rw [hbefore m hm]]
  simp [List.getD, Vector.toList_set]

/-- The block's answer to the next byte of a read: NACK exactly for the last (41 R151). -/
theorem CoreInv.readAnswer_next (h : CoreInv s) (hts : s.ts.pc = .tsData) (hdir : s.bte.dir = true) (hpc : s.bpd.pc = .dataR)
    (hlt : s.bte.idx.val < s.bte.n.val) :
    readAnswer s.ctl.ack s.ctl.last s.bte.idx s.bte.n = if s.bte.idx.val + 1 = s.bte.n.val then .nack else .ack := by
  obtain ⟨-, -, hn, hrw, -⟩ := h.dataPhase hts
  obtain ⟨-, hinit, -, hread, -, hsize⟩ := h.service (not_atRest_iff.2 (.inr (.inl hts)))
  obtain ⟨-, hlast⟩ := h.inited.1 hinit
  have hcount : s.bpd.size = s.bte.n := Option.some.inj ((hsize (by rw [← hread, ← hrw, hdir])).symm.trans hn)
  rw [h.ackBit (.inr hpc), hcount, hlast, readAnswer_eq hlt]

/-! ### What the wire shows -/

/-- A request is in its address phase or its data phase. -/
def InFlight (s : State) : Prop := s.ts.pc = .tsAddr ∨ s.ts.pc = .tsData

/-- The events of the open command's frame so far: its start, and past the acknowledged address byte that byte and the bytes counted. -/
def frameEvents (s : State) (f : FrameState) : List WireEvent :=
  if f = .started then [.start] else [.start, .addr (wireByte s.bpd.a s.bpd.rw) .ack] ++ dataEvents s

/-- While a request in flight has met no fault, the trace ends with the events of the frame the block should stand in. -/
def WireShown (s : State) : Prop :=
  InFlight s → NoFault s → ∀ f, frameExpected s = some f → frameEvents s f <:+ s.trace

/-- Nothing is claimed before TS1 and once the outcome is known. -/
theorem WireShown.of_not_inFlight (h : ¬InFlight s) : WireShown s := fun hs => absurd hs h

/-- Nothing is claimed after a fault. -/
theorem WireShown.of_fault (h : ¬NoFault s) : WireShown s := fun _ hs => absurd hs h

/-- Nothing is claimed before the start condition. -/
theorem WireShown.of_no_frame (h : frameExpected s = none) : WireShown s := fun _ _ f hf => by simp [h] at hf

/-- A step of the BPD emits nothing; it keeps what is shown if it leads from a started frame to a started frame, or from past the address
byte to past it. -/
theorem WireShown.bpdStep {p : BpdPc} {dr : Byte} {sr : Sr} {ctl : Ctl} {hid : Hid} (h : WireShown s)
    (hf : NoFault { s with sr := sr } → NoFault s)
    (hframe : ∀ f, frameExpected { s with dr := dr, sr := sr, ctl := ctl, hid := hid, bpd.pc := p } = some f →
      ∃ g, frameExpected s = some g ∧ (f = .started ↔ g = .started)) :
    WireShown { s with dr := dr, sr := sr, ctl := ctl, hid := hid, bpd.pc := p } := by
  intro hflight hn f hexp
  obtain ⟨g, hg, hiff⟩ := hframe f hexp
  have hshown := h hflight (hf hn) g hg
  rw [frameEvents, ← if_congr hiff rfl rfl] at hshown
  exact hshown

/-! ### The steps -/

/-- BW2 to BW4. -/
theorem WireShown.beginWrite {st : BeginWriteStep} (h : WireShown s) (hc : CoreInv s) (hi : innerStep (.cmdBeginWrite st) = false)
    (he : Machine.exec (.cmdBeginWrite st) s = .next t) : WireShown t := by
  cases st with
  | bw1 a => simp [innerStep, BeginWriteStep.isFirst] at hi
  | bw2 | bw3 =>
    refine stepWhen_keeps he h fun hp => h.bpdStep id ?_
    simp only [Bool.and_eq_true, beq_iff_eq] at hp
    simp [frameExpected, hp]
  | bw4 =>
    refine stepWhen_keeps he h fun hp => h.bpdStep id ?_
    simp only [Bool.and_eq_true, beq_iff_eq] at hp
    obtain ⟨⟨⟨hpc, hacked⟩, -⟩, -⟩ := hp
    simp [frameExpected, hpc, hc.addrPending_false_of_acked hacked]

/-- BR2 to BR6. -/
theorem WireShown.beginRead {st : BeginReadStep} (h : WireShown s) (hc : CoreInv s) (hi : innerStep (.cmdBeginRead st) = false)
    (he : Machine.exec (.cmdBeginRead st) s = .next t) : WireShown t := by
  cases st with
  | br1 a n => simp [innerStep, BeginReadStep.isFirst] at hi
  | br4 =>
    refine stepWhen_keeps he h fun hp => h.bpdStep id ?_
    simp only [Bool.and_eq_true, beq_iff_eq] at hp
    obtain ⟨⟨hpc, hacked⟩, -⟩ := hp
    simp [frameExpected, hpc, hc.addrPending_false_of_acked hacked]
  | br6 =>
    refine stepWhen_keeps he h fun hp => h.bpdStep id ?_
    simp only [Bool.and_eq_true, beq_iff_eq] at hp
    cases hx : s.hid.rxClosed <;> simp [frameExpected, hp, hx]
  | br2 | br3 | br5 =>
    refine stepWhen_keeps he h fun hp => h.bpdStep id ?_
    simp only [Bool.and_eq_true, beq_iff_eq] at hp
    simp [frameExpected, hp]

/-- TS1: the start condition of the new command is still to come. -/
theorem WireShown.tsDequeue (h : WireShown s) (hc : CoreInv s) (he : execTsDequeue s = .next t) (hok : t.refused = false) :
    WireShown t := by
  obtain rfl | ⟨r, rest, -, hts, -, ⟨-, rfl⟩ | ⟨-, rfl⟩⟩ := execTsDequeue_cases he
  · exact h
  · simp at hok
  obtain ⟨-, -, -, -, hsent, -⟩ := hc.rest (.inl hts)
  obtain hr | ⟨-, -, -, hr⟩ | ⟨-, -, -, c, -, hr⟩ := openRequest_cases r rest s
  · simp [hr] at hok
  all_goals
    rw [hr]
    exact .of_no_frame (by simp [frameExpected, hsent])

/-- TS2: the data phase begins with no byte counted, as the address phase ended. -/
theorem WireShown.tsAddrDone (h : WireShown s) (hc : CoreInv s) (he : execTsAddrDone s = .next t) (hok : t.refused = false) :
    WireShown t := by
  refine stepWhen_keeps (P := fun t => t.refused = false → WireShown t) he (fun _ => h) (fun hp hok => ?_) hok
  simp only [Bool.and_eq_true, beq_iff_eq] at hp
  obtain ⟨⟨hts, -⟩, -⟩ := hp
  obtain ⟨-, -, hidx, -⟩ := hc.addrPhase hts
  obtain hr | ⟨-, -, -, c, -, hr⟩ := armRequest_cases s
  · simp [hr] at hok
  rw [hr]
  intro _ hn f hexp
  have hshown := h (.inl hts) hn f hexp
  rw [frameEvents, dataEvents_of_idx_zero hidx] at hshown
  rw [frameEvents, dataEvents_of_idx_zero rfl]
  exact hshown

/-- Past the address byte the frame that is expected shows the bytes counted. -/
theorem frameEvents_data {f : FrameState} (hd : inDataState s = true) (hf : frameExpected s = some f) :
    frameEvents s f = [.start, .addr (wireByte s.bpd.a s.bpd.rw) .ack] ++ dataEvents s := by
  refine if_neg ?_
  rintro rfl
  rcases (inDataState_iff s).1 hd with hpc | hpc
  · simp [frameExpected, hpc] at hf
  · simp [frameExpected, hpc] at hf
    split at hf <;> simp at hf

/-- In a data state the bytes counted stand at the end of the trace, behind the address byte. -/
theorem WireShown.data (h : WireShown s) (hts : s.ts.pc = .tsData) (hn : NoFault s) (hd : inDataState s = true) :
    [.start, .addr (wireByte s.bpd.a s.bpd.rw) .ack] ++ dataEvents s <:+ s.trace := by
  obtain ⟨f, hf⟩ : ∃ f, frameExpected s = some f := by
    rcases (inDataState_iff s).1 hd with hpc | hpc
    · exact ⟨.writing, by simp [frameExpected, hpc]⟩
    · simp only [frameExpected, hpc]
      split <;> exact ⟨_, rfl⟩
  exact frameEvents_data hd hf ▸ h (.inr hts) hn f hf

/-- A step that puts an event on the wire and counts it. -/
theorem WireShown.counted {e : WireEvent} (h : WireShown s) (hts : s.ts.pc = .tsData) (hn : NoFault s) (hd : inDataState s = true)
    (hbpd : t.bpd = s.bpd) (htr : t.trace = s.trace ++ [e]) (hev : dataEvents t = dataEvents s ++ [e]) : WireShown t := by
  intro _ _ f hf
  have hd' : inDataState t = true := by rw [inDataState, hbpd]; exact hd
  obtain ⟨before, hbefore⟩ := h.data hts hn hd
  rw [frameEvents_data hd' hf, hev, htr, hbpd, ← hbefore]
  exact ⟨before, by simp⟩

/-- DP1: a byte that is acknowledged is counted, one that is not is a fault. -/
theorem WireShown.dataWbyte {k : Answer} (h : WireShown s) (hc : CoreInv s) (he : execDataWbyte k s = .next t) : WireShown t := by
  obtain rfl | ⟨j, hj, -, hg, hdir, hpc, rfl⟩ := execDataWbyte_cases he
  · exact h
  obtain ⟨hts, -, hf, -⟩ := hc.dataStep hg
  cases k with
  | ack =>
    exact h.counted hts ((faultAny_eq_false_iff s).1 hf) (by simp [hpc]) (sendByte_bpd ..) (sendByte_trace ..)
      (dataEvents_sendByte hdir hj)
  | nack => exact .of_fault (by simp [NoFault])

/-- DP2: a received byte is counted, and answered by its place among the `n`. -/
theorem WireShown.dataRbyte {b : Byte} (h : WireShown s) (hc : CoreInv s) (he : execDataRbyte b s = .next t) : WireShown t := by
  obtain rfl | ⟨j, hj, hlt, hg, hdir, hpc, -, rfl⟩ := execDataRbyte_cases he
  · exact h
  obtain ⟨hts, -, hf, -⟩ := hc.dataStep hg
  refine h.counted hts ((faultAny_eq_false_iff s).1 hf) (by simp [hpc]) (takeByte_bpd ..) (takeByte_trace ..) ?_
  rw [dataEvents_takeByte b hdir hj, hc.readAnswer_next hts hdir hpc hlt, hj]

/-- EV1: the start condition opens the frame. -/
theorem WireShown.envStart (h : WireShown s) (hc : CoreInv s) (he : execEnvStart s = .next t) : WireShown t := by
  refine stepWhen_keeps he h fun hp _ _ f hf => ?_
  simp only [Bool.and_eq_true] at hp
  obtain ⟨⟨hstart, -⟩, -⟩ := hp
  obtain ⟨hpc, -⟩ := hc.startBit hstart
  obtain rfl : f = .started := by simpa [frameExpected, hpc, eq_comm] using hf
  exact List.suffix_append s.trace [.start]

/-- EV2: the acknowledged address byte, which BW3 or BR3 wrote, comes right behind the start condition. -/
theorem WireShown.envAddrAck (h : WireShown s) (hc : CoreInv s) (he : execEnvAddrAck s = .next t) : WireShown t := by
  refine stepWhen_keeps he h fun hp hflight hn f hf => ?_
  rw [addressGoesOut_iff] at hp
  obtain ⟨hpend, -, -, hns⟩ := hp
  obtain ⟨hpc, hdr, -⟩ := hc.addrPending hpend
  have hts : s.ts.pc = .tsAddr := hflight.resolve_right fun hdata => by
    obtain ⟨-, hd, -⟩ := hc.dataPhase hdata
    rcases hpc with hpc | hpc <;> simp [hpc] at hd
  obtain ⟨-, -, hidx, -⟩ := hc.addrPhase hts
  obtain ⟨before, hbefore⟩ := h hflight hns .started (by rcases hpc with hpc | hpc <;> simp [frameExpected, hpc, hpend])
  have hne : f ≠ .started := by
    rintro rfl
    rcases hpc with hpc | hpc <;> simp [frameExpected, hpc] at hf
  exact ⟨before, by simp [← hbefore, hdr, frameEvents, hne, dataEvents_of_idx_zero, hidx]⟩

/-- EV4: while a request is in flight a stop is requested only before its start condition. -/
theorem WireShown.envStop (h : WireShown s) (hc : CoreInv s) (he : execEnvStop s = .next t) : WireShown t := by
  refine stepWhen_keeps he h fun hstop => ?_
  obtain ⟨-, hrest | ⟨-, hpc, hstart⟩⟩ := hc.stopBit hstop
  · refine .of_not_inFlight ?_
    rcases hrest with hts | hts <;> simp [InFlight, hts]
  · obtain ⟨-, hsent, -⟩ := hc.startBit hstart
    exact .of_no_frame (by simp [frameExpected, hpc, hsent])

/-- Every instruction an agent may issue keeps what is shown, unless it is refused. -/
theorem WireShown.exec (h : WireShown s) (hc : CoreInv s) (hi : innerStep i = false) (he : exec i s = .next t)
    (hok : t.refused = false) : WireShown t := by
  cases exec_effect i s t he with
  | refuse => simp at hok
  | bw1 | br1 | endTransaction | arm | disarm => simp [innerStep, BeginWriteStep.isFirst, BeginReadStep.isFirst] at hi
  | bw2 | bw3 | bw4 => exact h.beginWrite hc hi he
  | br2 | br3 | br4 | br5 | br6 => exact h.beginRead hc hi he
  | waWrite _ hpc | waRead _ hpc => exact h.bpdStep id (by simp [frameExpected, hpc])
  | dequeueWrite | dequeueRead => exact h.tsDequeue hc he hok
  | addrDone => exact h.tsAddrDone hc he hok
  | addrFault | dataDone | dataFault | finish | put => exact .of_not_inFlight (by simp [InFlight])
  | wbyte => exact h.dataWbyte hc he
  | rbyte => exact h.dataRbyte hc he
  | start => exact h.envStart hc he
  | addrAck => exact h.envAddrAck hc he
  | stop => exact h.envStop hc he
  | addrNack | busError | arbLost => exact .of_fault (by simp [← faultAny_eq_true_iff])
  | _ => exact h

theorem WireShown.offer (h : WireShown s) (k : Nat) (r : TransferRequest) : WireShown (offer k r s) := by
  obtain ⟨-, -, he⟩ | ⟨-, -, he⟩ | he := offer_cases k r s <;> rw [he] <;> exact h

theorem WireShown.undecoded (h : WireShown s) (e : Stimulus) (hok : (undecoded e s).refused = false) :
    WireShown (undecoded e s) := by
  obtain he | ⟨k, r, he⟩ := undecoded_cases e s
  · simp [he] at hok
  · exact he ▸ h.offer k r

/-- Every reachable state shows what it has counted: by induction on the run, `CoreInv` standing for the state before each step. -/
theorem Reachable.wireShown (h : Reachable s) (hok : s.refused = false) : WireShown s := by
  induction h with
  | launch => exact .of_not_inFlight (by simp [InFlight, State.reset])
  | step s t hreach hs ih =>
    obtain ⟨hrefused, ⟨-, rfl⟩ | ⟨e, rest, ha, hcase⟩⟩ := step_cases hs
    · exact ih hok
    have hc := (hreach.coreInv hrefused).withAgenda rest
    have h : WireShown { s with agenda := rest } := ih hrefused
    obtain ⟨howned, -⟩ := hreach.inv
    obtain ⟨i, hd, he⟩ | ⟨-, rfl⟩ := hcase
    · exact h.exec hc (innerStep_of_owned (howned e (by simp [ha])) hd) he hok
    · exact h.undecoded e hok

end Sys2Proof.Machine
end

section
/-! SUPPORT. The steps of the data phase, each with its effect where its `pre` is true (41 R152 to R154). -/

namespace Sys2Proof.Machine

variable {s : State}

/-- BA1 arms the engine for the direction of the open command (41 R152). -/
theorem exec_armsEngine {n : Byte} {c : Count} (hen : s.ctl.bteEn = true) (harmed : s.bte.armed = false)
    (hd : inDataState s = true) (hc : operandCount n = some c) :
    exec (.bteArm n) s = .next { s with
      bte := ⟨true, s.bpd.pc == .dataR, c, 0, if s.bpd.pc == .dataW then s.ts.req.payload else s.bte.buf⟩ } := by
  rw [exec, execBteArm, armEngine_some.2 ⟨hen, harmed, hd, c, hc, rfl⟩, orRefuse_some]

/-- BA1 outside its `pre` is refused (41 R152, 93 U6). -/
theorem ba1_refused {n : Byte} (h : (s.ctl.bteEn = false ∨ n.toNat = 0 ∨ 16 < n.toNat) ∨
    s.bte.armed = true ∨ s.bpd.pc ≠ .dataW ∧ s.bpd.pc ≠ .dataR) : IsRefused s (exec (.bteArm n) s) := by
  refine isRefused_orRefuse fun t ht => ?_
  obtain ⟨hen, harmed, hd, c, hc, -⟩ := armEngine_some.1 ht
  obtain ⟨hpos, hle, -⟩ := operandCount_some.1 hc
  rw [inDataState_iff] at hd
  simp only [hen, harmed, Bool.true_eq_false, Bool.false_eq_true, false_or] at h
  rcases h with h | ⟨hw, hr⟩
  · omega
  · exact hd.elim hw hr

/-- In TS2 the `pre` of BA1 holds: the block is initialised, the engine not yet armed, the request's length admitted (42 R178). -/
theorem CoreInv.tsAddrDone_not_refused {t : State} (h : CoreInv s) (hok : s.refused = false) (he : execTsAddrDone s = .next t) :
    t.refused = false := by
  refine stepWhen_keeps (P := fun t => t.refused = false) he hok fun hp => ?_
  simp only [Bool.and_eq_true, beq_iff_eq] at hp
  obtain ⟨⟨hts, hd⟩, -⟩ := hp
  obtain ⟨harmed, -⟩ := h.addrPhase hts
  obtain ⟨-, hinit, hadm, -⟩ := h.service (not_atRest_iff.2 (.inl hts))
  obtain ⟨hen, -⟩ := h.inited.1 hinit
  obtain ⟨c, hc⟩ := admitted_count hadm
  rw [armEngine_some.2 ⟨hen, harmed, hd, c, hc, rfl⟩]
  exact hok

/-- In a data state the acknowledge of the address byte is withdrawn: BW4 and BR6 cleared the flag (40 R122, R123). -/
theorem CoreInv.addrAcked_false_of_data (h : CoreInv s) (hd : inDataState s = true) : s.sr.addrAcked = false := by
  refine Bool.eq_false_iff.2 fun ha => ?_
  rcases (inDataState_iff s).1 hd with hpc | hpc <;> simpa [hpc] using h.addrAcked ha

/-- DP1 sends the next byte (41 R153). -/
theorem exec_sendsByte {i : Fin 16} {answer : Answer} (hg : dataStepReady s = true) (hdir : s.bte.dir = false)
    (hpc : s.bpd.pc = .dataW) (hi : i.val = s.bte.idx.val) (hlt : s.bte.idx.val < s.bte.n.val) :
    exec (.dataWbyte answer) s = .next (sendByte i answer s) := by
  rw [exec, execDataWbyte, nextIndex_some.2 ⟨hlt, hi⟩]
  exact stepWhen_of (by rw [hg, hdir, hpc]; rfl)

/-- DP2 takes the next byte (41 R154). -/
theorem exec_takesByte {i : Fin 16} {b : Byte} (hg : dataStepReady s = true) (hdir : s.bte.dir = true) (hpc : s.bpd.pc = .dataR)
    (hopen : s.hid.rxClosed = false) (hi : i.val = s.bte.idx.val) (hlt : s.bte.idx.val < s.bte.n.val) :
    exec (.dataRbyte b) s = .next (takeByte i b s) := by
  rw [exec, execDataRbyte, nextIndex_some.2 ⟨hlt, hi⟩]
  exact stepWhen_of (by rw [hg, hdir, hpc, hopen]; rfl)

/-- The answer rule (41 R151). -/
theorem readAnswer_ack_iff {ack last : Bool} {i n : Count} :
    readAnswer ack last i n = .ack ↔ ack = true ∧ ¬(last = true ∧ i.val + 1 = n.val) := by
  simp [readAnswer]

/-- The answer rule for the other answer (41 R151). -/
theorem readAnswer_nack_iff {ack last : Bool} {i n : Count} :
    readAnswer ack last i n = .nack ↔ ack = false ∨ (last = true ∧ i.val + 1 = n.val) := by
  cases ack <;> simp [readAnswer]

/-- A byte that DP2 answers ACK leaves the frame as open as it was (41 R154). -/
theorem takeByte_of_ack {i : Fin 16} {b : Byte} (h : readAnswer s.ctl.ack s.ctl.last s.bte.idx s.bte.n = .ack) :
    takeByte i b s = { s with
      dr := b, bte.buf := s.bte.buf.set i b, bte.idx := i.succ, trace := s.trace ++ [.rd b .ack] } := by
  have hkeep : (s.hid.rxClosed || Answer.ack == .nack) = s.hid.rxClosed := Bool.or_false _
  rw [takeByte, h, hkeep]
  rfl

/-- A byte that DP2 answers NACK closes the frame (41 R154). -/
theorem takeByte_of_nack {i : Fin 16} {b : Byte} (h : readAnswer s.ctl.ack s.ctl.last s.bte.idx s.bte.n = .nack) :
    takeByte i b s = { s with
      dr := b, bte.buf := s.bte.buf.set i b, bte.idx := i.succ, trace := s.trace ++ [.rd b .nack], hid.rxClosed := true } := by
  have hclose : (s.hid.rxClosed || Answer.nack == .nack) = true := Bool.or_true _
  rw [takeByte, h, hclose]
  rfl

end Sys2Proof.Machine
end

section
/-! PROOFS. The data phase: the bytes counted are those on the wire, and its steps (41 R151 to R157). -/

namespace Sys2Proof.Machine

/-- Settles O45: `WireShown` in the data phase, the address byte being that of the request in service. -/
theorem countingLaw : Obligations.CountingLaw := by
  intro s hreach hok hts hn
  have hc := hreach.coreInv hok
  obtain ⟨-, hd, -⟩ := hc.dataPhase hts
  obtain ⟨-, -, -, hrw, haddr, -⟩ := hc.service (not_atRest_iff.2 (.inr (.inl hts)))
  obtain ⟨before, hbefore⟩ := (hreach.wireShown hok).data hts hn hd
  refine ⟨before, ?_⟩
  rw [← hbefore, haddr, hrw, List.append_assoc]
  rfl

/-- Settles O10: the two answers are the two cases of DP1's effect. -/
theorem writtenByte : Obligations.WrittenByte := by
  refine ⟨fun s hreach hok hpc => (hreach.coreInv hok).addrAcked_false_of_data (by simp [hpc]), ?_⟩
  intro i s harmed hdir hpc hts hi hlt hm hacked hn
  have hg := (dataStepReady_iff s).2 ⟨harmed, hts, hm, hacked, hn⟩
  exact ⟨exec_sendsByte hg hdir hpc hi hlt, exec_sendsByte hg hdir hpc hi hlt⟩

/-- Settles O11: the answer rule, and DP2's effect for each of its values. -/
theorem readByte : Obligations.ReadByte := by
  refine ⟨fun _ _ _ _ => readAnswer_ack_iff, fun _ _ => readAnswer_eq,
    fun s hreach hok hpc => (hreach.coreInv hok).addrAcked_false_of_data (by simp [hpc]), ?_⟩
  intro i b s harmed hdir hpc hts hi hlt hm hacked hn hopen
  have hg := (dataStepReady_iff s).2 ⟨harmed, hts, hm, hacked, hn⟩
  rw [exec_takesByte hg hdir hpc hopen hi hlt]
  exact ⟨fun hack hlast => congrArg _ (takeByte_of_ack (readAnswer_ack_iff.2 ⟨hack, hi ▸ hlast⟩)),
    fun h => congrArg _ (takeByte_of_nack (readAnswer_nack_iff.2 (hi ▸ h)))⟩

/-- Settles O9: BA1's effect with the direction of each data state, its refusals, and TS2, where it is never refused. -/
theorem engineArmedDisarmed : Obligations.EngineArmedDisarmed := by
  refine ⟨fun s t hreach hok => (hreach.coreInv hok).tsAddrDone_not_refused hok, fun n c s => ⟨?write, ?read,
    fun h => ba1_refused (.inl h), fun h => ba1_refused (.inr h), rfl⟩⟩
  case write | read =>
    intro hen harmed hpc hpos hc
    rw [exec_armsEngine hen harmed (by simp [hpc]) (operandCount_some.2 ⟨hpos, by omega, hc⟩), hpc]
    rfl

end Sys2Proof.Machine
end

section
/-! SUPPORT. The steps of the scheduler and of the channels, each with its effect where its `pre` is true (42 sections 2 and 3). -/

namespace Sys2Proof.Machine

variable {k : Nat} {r : TransferRequest} {q : TransferResponse} {rest : List TransferRequest} {s : State}

/-! ### The channels -/

/-- PR1 takes the record whole (42 R172). -/
theorem exec_accepts (hk : k < s.par.nProducers) (hroom : s.reqch.length < s.par.reqCap) :
    exec (.chEnq k r) s = .next (accept k r s) :=
  stepWhen_of (by simp [hk, hroom])

/-- PR2 rejects on a full channel (42 R173). -/
theorem exec_rejects (hk : k < s.par.nProducers) (hfull : s.reqch.length = s.par.reqCap) :
    exec (.chEnqReject k r) s = .next (reject k r s) :=
  stepWhen_of (by simp [hk, hfull])

/-- PR3 takes the front of the response channel (42 R174). -/
theorem receive_front {rest : List TransferResponse} (hk : k < s.par.nProducers) (hq : s.rspch = q :: rest) :
    receive k s = tell (.received k q) { s with rspch := rest } := by
  rw [receive, if_pos ((producer_iff k s).2 hk), hq]

/-- A message at the front of the response channel is taken (42 R174, A11). -/
theorem receiveMessage_front {rest : List TransferResponse} (hk : k < s.par.nProducers) (hq : s.rspch = q :: rest) :
    receiveMessage k q s = tell (.received k q) { s with rspch := rest } := by
  rw [receiveMessage, if_pos (by simp [hq]), receive_front hk hq]

/-- A message that is not at the front of the response channel is not taken (A11). -/
theorem receiveMessage_of_ne (h : s.rspch.head? ≠ some q) : receiveMessage k q s = s := if_neg h

/-! ### Requests taken (TS1) -/

theorem isRead_iff : isRead r = true ↔ r.kind = 0x01#8 := beq_iff_eq

theorem isWrite_iff : isWrite r = true ↔ r.kind = 0x00#8 := beq_iff_eq

/-- A Write is no Read (30_encoding R91). -/
theorem isRead_of_isWrite (h : isWrite r = true) : isRead r = false := by
  rw [isRead, isWrite_iff.1 h]
  rfl

/-- A request with a reserved kind or length is not admitted (30_encoding R101). -/
theorem admitted_of_reserved (h : 2 ≤ r.kind.toNat ∨ r.length.toNat = 0 ∨ 16 < r.length.toNat) : admitted r = false := by
  refine Bool.eq_false_iff.2 fun hadm => ?_
  obtain ⟨hkind, hpos, hle⟩ := (admitted_iff r).1 hadm
  have hlt : r.kind.toNat < 2 := by
    rcases hkind with hw | hr
    · simp [isWrite_iff.1 hw]
    · simp [isRead_iff.1 hr]
  omega

/-- TS1 takes the front request and opens it or refuses it (42 R177, R175). -/
theorem execTsDequeue_front (hts : s.ts.pc = .tsWait) (hq : s.reqch = r :: rest) (hi : s.bpd.inited = true) :
    execTsDequeue s = .next (if admitted r then openRequest r rest s else refuse s) := by
  rw [execTsDequeue, hq]
  exact stepWhen_of (by rw [hts, hi]; rfl)

/-- Opening a Write contains BW1 (42 R177, 40 R122). -/
theorem openRequest_write (hr : isRead r = false) (hi : s.bpd.inited = true) (hpc : s.bpd.pc = .ready) :
    openRequest r rest s = { s with
      ts.req := r, reqch := rest, bte.n := 0, bte.idx := 0, ts.pc := .tsAddr
      bpd.rw := false, bpd.a := r.deviceAddress, bpd.pc := .wSb, ctl.start := true } := by
  simp [openRequest, hr, beginWriteStart, hi, hpc, orRefuse_some]

/-- Opening a Read contains BR1 with the request's length (42 R177, 40 R123). -/
theorem openRequest_read {c : Count} (hr : isRead r = true) (hi : s.bpd.inited = true) (hpc : s.bpd.pc = .ready)
    (hc : operandCount r.length = some c) :
    openRequest r rest s = { s with
      ts.req := r, reqch := rest, bte.n := 0, bte.idx := 0, ts.pc := .tsAddr
      bpd.rw := true, bpd.a := r.deviceAddress, bpd.size := c, bpd.pc := .wSb, hid.rxClosed := false, ctl.start := true } := by
  simp [openRequest, hr, beginReadStart, hi, hpc, hc, orRefuse_some]

/-! ### Outcomes (TS3 to TS5) -/

/-- TS3 observes a fault of the address phase (42 R179). -/
theorem exec_latchesAddrFault (hts : s.ts.pc = .tsAddr) (hf : ¬NoFault s)
    (hexit : s.par.faultExit = true ∨ s.bpd.pc = .dataW ∨ s.bpd.pc = .dataR) :
    exec .tsAddrFault s = .next (latchOutcome .error s) :=
  stepWhen_of (by simpa [hts, hf] using hexit)

/-- TS4 observes completion (42 R180). -/
theorem exec_latchesSuccess (hts : s.ts.pc = .tsData) (hidx : s.bte.idx = s.bte.n) (hn : NoFault s) :
    exec .tsDataDone s = .next (latchOutcome .success s) :=
  stepWhen_of (by simp [hts, hidx, hn])

/-- TS5 observes a fault of the data phase (42 R181). -/
theorem exec_latchesDataFault (hts : s.ts.pc = .tsData) (hf : ¬NoFault s) :
    exec .tsDataFault s = .next (latchOutcome .error s) :=
  stepWhen_of (by simp [hts, hf])

/-- TS7 puts the response where there is room (42 R184). -/
theorem exec_putsResponse (hts : s.ts.pc = .tsResp) (hroom : s.rspch.length < s.par.rspCap) :
    exec .tsPut s = .next (putResponse s) :=
  stepWhen_of (by simp [hts, hroom])

/-! ### A fault of the address phase -/

/-- When TS3 latches the outcome no byte has been counted and a command is open (42 R186). -/
theorem CoreInv.addrFault_next {t : State} (h : CoreInv s) (hts : s.ts.pc = .tsAddr) (he : execTsAddrFault s = .next t)
    (ht : t.ts.pc = .tsFinish) : t = Machine.latchOutcome .error s ∧ s.bte.idx = 0 ∧ s.bpd.inited = true ∧ s.bpd.pc ≠ .ready := by
  obtain ⟨-, -, hidx, -⟩ := h.addrPhase hts
  obtain ⟨hpc, hi, -⟩ := h.service (not_atRest_iff.2 (.inl hts))
  obtain ⟨-, rfl⟩ | ⟨-, rfl⟩ := stepWhen_next.1 he
  · exact ⟨rfl, hidx, hi, hpc⟩
  · simp [hts] at ht

end Sys2Proof.Machine
end

section
/-! PROOFS. The scheduler and the channels, step by step, and the laws of the responses (42 R172 to R186). -/

namespace Sys2Proof.Machine

/-- Settles O41: it is a clause of the invariant. -/
theorem responsesPairInOrder : Obligations.ResponsesPairInOrder :=
  fun _ hreach hok => (hreach.coreInv hok).paired

/-- Settles O42: the laws of a response are a clause of the invariant; in the address phase no byte has been counted, and TS6 reports
the count. -/
theorem lengthLaws : Obligations.LengthLaws := by
  refine ⟨fun s hreach hok => (hreach.coreInv hok).response, fun s t u hreach hok hts he ht hu => ?_⟩
  obtain ⟨rfl, hidx, hi, hpc⟩ := (hreach.coreInv hok).addrFault_next hts he ht
  cases (execTsFinish_ends ht hi hpc).symm.trans hu
  exact ⟨rfl, hidx⟩

/-- Settles O16: TS1 by the kind of its request; in TS_WAIT the invariant has no command open. -/
theorem requestDequeued : Obligations.RequestDequeued := by
  refine ⟨fun s hreach hok hts => ((hreach.coreInv hok).rest (.inl hts)).1, fun r rest size s hts hq hi => ?_⟩
  have hfront := execTsDequeue_front hts hq hi
  refine ⟨fun hk hpos hle hpc => ?write, fun hk hpos hsize hpc => ?read, fun h => ?refused⟩
  case write =>
    have hw := isWrite_iff.2 hk
    rw [if_pos ((admitted_iff r).2 ⟨.inl hw, hpos, hle⟩), openRequest_write (isRead_of_isWrite hw) hi hpc] at hfront
    exact hfront
  case read =>
    have hr := isRead_iff.2 hk
    have hle : r.length.toNat ≤ 16 := by omega
    rw [if_pos ((admitted_iff r).2 ⟨.inr hr, hpos, hle⟩), openRequest_read hr hi hpc (operandCount_some.2 ⟨hpos, hle, hsize⟩)]
      at hfront
    exact hfront
  case refused =>
    rw [exec, hfront, admitted_of_reserved h]
    exact isRefused_refuse s

/-- Settles O12: PR1 and PR3. -/
theorem channelOperations : Obligations.ChannelOperations :=
  fun _ _ _ _ _ hk => ⟨exec_accepts hk, fun hq => congrArg _ (receive_front hk hq)⟩

/-- Settles O13: PR2. -/
theorem enqueueRejected : Obligations.EnqueueRejected := fun _ _ _ => exec_rejects

/-- Settles O15: both rows take their message or leave it. -/
theorem responseMessagesTaken : Obligations.ResponseMessagesTaken :=
  fun _ _ _ _ _ => ⟨fun hk hq => congrArg _ (receiveMessage_front hk hq), fun hk hq => congrArg _ (receiveMessage_front hk hq),
    fun h => congrArg _ (receiveMessage_of_ne h), fun h => congrArg _ (receiveMessage_of_ne h)⟩

/-- Settles O17: TS2's effect with the direction of each data state. -/
theorem addressPhaseDone : Obligations.AddressPhaseDone := by
  intro c s hts hn hen harmed hpos hc
  have harms := fun hd : inDataState s = true =>
    execTsAddrDone_arms hts hd hn hen harmed (operandCount_some.2 ⟨hpos, by omega, hc⟩)
  refine ⟨fun hpc => ?_, fun hpc => ?_⟩
  all_goals
    rw [exec, harms (by simp [hpc]), hpc]
    rfl

/-- Settles O18: TS3, TS4 and TS5. -/
theorem outcomeLatched : Obligations.OutcomeLatched :=
  fun _ => ⟨exec_latchesAddrFault, exec_latchesSuccess, exec_latchesDataFault⟩

/-- Settles O19: TS6's effect, with the buffer of the response and the counter moved on. -/
theorem transactionFinished : Obligations.TransactionFinished := fun s hts hi hpc =>
  ⟨responseBuffer s, s.draws + 16, execTsFinish_ends hts hi hpc, fun hk i => responseBuffer_received s i (isRead_iff.2 hk)⟩

/-- Settles O20: a byte that is not received is free, and TS6 moves the counter past sixteen of them. -/
theorem unusedBufferBytesFree : Obligations.UnusedBufferBytesFree := by
  intro s t hts hi hpc he i h
  cases (execTsFinish_ends hts hi hpc).symm.trans he
  have hfree : isRead s.ts.req = false ∨ s.bte.idx.val ≤ i.val := h.imp_left fun hk => Bool.eq_false_iff.2 (mt isRead_iff.1 hk)
  exact ⟨responseBuffer_free s i hfree, Nat.add_lt_add_left i.isLt s.draws⟩

/-- Settles O21: TS7. -/
theorem responsePut : Obligations.ResponsePut := fun _ => exec_putsResponse

end Sys2Proof.Machine
end

section
/-! SUPPORT. Runs that may meet a fault, and the abort sequence as such a run (60 R246). The fixture of 95 section 5 allows no bus fault, so
these are runs of the block alone, where `Path` is one of the bench as well. -/

namespace Sys2Proof.Machine

variable {m m' rest : List Stimulus} {i observe : Instr} {w w' : List WireEvent} {s t u : State}

/-! ### Runs -/

/-- `Leads m s w t`: the agenda of `s` begins with the moves `m`, which run to `t` and put `w` on the wire. -/
structure Leads (m : List Stimulus) (s : State) (w : List WireEvent) (t : State) : Prop where
  run : Sys2Proof.core.run m.length s = .next t
  trace : t.trace = s.trace ++ w
  agenda : s.agenda = m ++ t.agenda

/-- No move of a path writes the parameters (A9). -/
theorem Path.par_eq (h : Path m s w t) : t.par = s.par := by
  induction h with
  | done => rfl
  | quiet _ _ _ he _ _ ih | event _ _ _ he _ _ ih =>
    obtain ⟨hpar, -⟩ := dataItemWriters _ _ _ he
    rw [ih, hpar]

theorem Path.leads (h : Path m s w t) : Leads m s w t := ⟨h.run, h.trace_eq, h.agenda_eq⟩

/-- Runs compose. -/
theorem Leads.append (h : Leads m s w t) (h' : Leads m' t w' u) : Leads (m ++ m') s (w ++ w') u where
  run := by rw [List.length_append, run_add h.run, h'.run]
  trace := by rw [h'.trace, h.trace, List.append_assoc]
  agenda := by rw [h.agenda, h'.agenda, List.append_assoc]

/-- What is left of the agenda after a run. -/
theorem Leads.agenda_rest (h : Leads m s w t) (ha : s.agenda = m ++ rest) : t.agenda = rest :=
  (List.append_cancel_left (ha.symm.trans h.agenda)).symm

/-- One move is a run. -/
theorem Leads.of_exec (hok : s.refused = false) (ha : s.agenda = move i :: rest)
    (he : exec i { s with agenda := rest } = .next t) (htr : t.trace = s.trace ++ w) : Leads [move i] s w t where
  run := run_succ ((step_move hok ha).trans he)
  trace := htr
  agenda := by rw [exec_agenda he]; exact ha

/-! ### The abort sequence -/

/-- `observe` is the step by which TS observes a fault in `s` (42 R179, R181). -/
def Observes (observe : Instr) (s : State) : Prop :=
  (s.ts.pc = .tsAddr ∧ observe = .tsAddrFault ∧ (s.par.faultExit = true ∨ s.bpd.pc = .dataW ∨ s.bpd.pc = .dataR)) ∨
    (s.ts.pc = .tsData ∧ observe = .tsDataFault)

/-- TS observes a fault and latches Error (42 R179, R181). -/
theorem Observes.exec (h : Observes observe s) (hf : ¬NoFault s) : Machine.exec observe s = .next (latchOutcome .error s) := by
  obtain ⟨hts, rfl, hexit⟩ | ⟨hts, rfl⟩ := h
  · exact exec_latchesAddrFault hts hf hexit
  · exact exec_latchesDataFault hts hf

/-- EV4 releases the bus (43 R215). -/
theorem exec_releases (hstop : s.ctl.stop = true) : exec .envStop s = .next { s with
    trace := s.trace ++ if s.sr.master then [.stop] else [], sr.master := false, ctl.stop := false, hid.addrPending := false } := by
  refine (stepWhen_of hstop).trans (congrArg _ ?_)
  rw [completeStop_eq]
  split <;> simp

/-- The state after the abort sequence, `rest` being the moves still to come (60 R247). -/
def afterAbort (rest : List Stimulus) (s : State) : State := { s with
  agenda := rest, bpd.pc := .ready, bte.armed := false, sr := ⟨false, false, false, false, false, false⟩
  ctl.start := false, ctl.stop := false, hid.addrPending := false
  ts.status := .error, ts.pc := .tsWait, ts.rsp := ⟨.error, s.bte.idx, responseBuffer s⟩
  rspch := s.rspch ++ [⟨.error, s.bte.idx, responseBuffer s⟩], draws := s.draws + 16
  trace := s.trace ++ if s.sr.master then [.stop] else [] }

/-- The abort sequence runs from the fault to rest: observe, clean up, report, release (60 R246). -/
theorem Observes.abort (hobs : Observes observe s) (hok : s.refused = false) (hf : ¬NoFault s) (hi : s.bpd.inited = true)
    (hpc : s.bpd.pc ≠ .ready) (hroom : s.rspch.length < s.par.rspCap)
    (ha : s.agenda = [move observe, move .tsFinish, move .tsPut, move .envStop] ++ rest) :
    Leads [move observe, move .tsFinish, move .tsPut, move .envStop] s (if s.sr.master then [.stop] else [])
      (afterAbort rest s) := by
  have observed := Leads.of_exec (w := []) hok ha (Observes.exec hobs hf) (by simp)
  have cleaned := observed.append (.of_exec (w := []) hok rfl (execTsFinish_ends rfl hi hpc) (by simp))
  have reported := cleaned.append (.of_exec (w := []) hok rfl (exec_putsResponse rfl hroom) (by simp))
  exact reported.append (.of_exec hok rfl (exec_releases rfl) rfl)

end Sys2Proof.Machine
end

section
/-! SUPPORT. A request that meets a fault (42 R190, R191): from the fault to the response {Error, count} and a ready block. -/

namespace Sys2Proof.Machine

variable {k : Nat} {r : TransferRequest} {rest : List Stimulus} {observe : Instr} {f : FaultKind} {s : State}

/-- A fault has struck while a request of producer `k` is in service and no other request or response is about. -/
structure Faulted (k : Nat) (s : State) : Prop where
  reqch : s.reqch = []
  rspch : s.rspch = []
  fault : ¬NoFault s
  bpdPc : s.bpd.pc ≠ .ready
  inited : s.bpd.inited = true
  bteEn : s.ctl.bteEn = true
  last : s.ctl.last = true
  notRefused : s.refused = false
  reqCap : 1 ≤ s.par.reqCap
  rspCap : 1 ≤ s.par.rspCap
  producer : k < s.par.nProducers

/-- A fault of any kind strikes a request in service (60 Table 60-1). -/
theorem Serving.faulted (h : Serving k r s) (hpc : s.bpd.pc ≠ .ready) : Faulted k (raiseFault f s) where
  reqch := by simp [h.reqch]
  rspch := by simp [h.rspch]
  fault := (faultAny_eq_true_iff _).1 (raiseFault_faultAny f s)
  bpdPc := by simpa using hpc
  inited := by simp [h.inited]
  bteEn := by simp [h.bteEn]
  last := by simp [h.last]
  notRefused := by simp [h.notRefused]
  reqCap := by simpa using h.reqCap
  rspCap := by simpa using h.rspCap
  producer := by simpa using h.producer

/-- From the fault on, the request ends with {Error, count}, and the stop is on the wire if the block is still master (60 R246, R247). -/
theorem Faulted.abort (h : Faulted k s) (hobs : Observes observe s) (ha : s.agenda = abortMoves k observe ++ rest) :
    ∃ t, Leads (abortMoves k observe) s (if s.sr.master then [.stop] else []) t ∧ ReadyFor k t ∧
      t.told = s.told ++ [.received k ⟨.error, s.bte.idx, responseBuffer s⟩] ∧ t.ctl.ack = s.ctl.ack := by
  have hroom : s.rspch.length < s.par.rspCap := by rw [h.rspch]; exact h.rspCap
  have aborted := hobs.abort h.notRefused h.fault h.inited h.bpdPc hroom ha
  have taken := aborted.append (.of_exec (w := []) h.notRefused rfl
    (execChRecv_front (q := ⟨.error, s.bte.idx, responseBuffer s⟩) h.producer (congrArg (· ++ [_]) h.rspch)) (by simp))
  rw [List.append_nil] at taken
  exact ⟨_, taken, ⟨⟨h.reqch, rfl, rfl, rfl, rfl, rfl, rfl, rfl, rfl⟩, h.inited, h.bteEn, h.last, h.notRefused, h.reqCap,
    h.rspCap, h.producer⟩, rfl, rfl⟩

/-- The target refuses its address before a byte is counted (43 R214). -/
theorem AddressPending.refuse (h : AddressPending k r s) (ha : s.agenda = move .envAddrNack :: rest) :
    ∃ t, Leads [move .envAddrNack] s [.addr (wireByte r.deviceAddress (isRead r)) .nack] t ∧ Faulted k t ∧ t.ts.pc = .tsAddr ∧
      t.sr.master = true ∧ t.bte.idx = 0 ∧ t.par = s.par ∧ t.told = s.told ∧ t.ctl = s.ctl := by
  have hpc : s.bpd.pc ≠ .ready := by rw [h.bpdPc]; split <;> decide
  have hserving : Serving k r { emit (.addr s.dr .nack) { s with agenda := rest } with hid.addrPending := false } :=
    { h.toServing with }
  exact ⟨_, .of_exec h.notRefused ha (stepWhen_of ((addressGoesOut_iff _).2 ⟨h.pending, h.master, h.stop, h.noFault⟩))
    (by simp [h.dr]), hserving.faulted hpc, h.tsPc, h.master, h.idx, rfl, rfl, rfl⟩

/-- In the data phase a command is open. -/
theorem DataOpen.bpdPc_ne_ready (h : DataOpen k r s) : s.bpd.pc ≠ .ready := by rw [h.bpdPc]; split <;> decide

/-- The target refuses a written byte, which is not counted (41 R153). -/
theorem DataOpen.sendRefused {i : Fin 16} (h : DataOpen k r s) (hr : isRead r = false) (hi : i.val = s.bte.idx.val)
    (hlt : s.bte.idx.val < s.bte.n.val) (ha : s.agenda = move (.dataWbyte .nack) :: rest) :
    ∃ t, Leads [move (.dataWbyte .nack)] s [.wr s.bte.buf[i] .nack] t ∧ Faulted k t ∧ t.ts.pc = .tsData ∧
      t.sr.master = true ∧ t.bte.idx = s.bte.idx ∧ t.told = s.told := by
  have hserving : Serving k r (emit (.wr s.bte.buf[i] .nack) { s with agenda := rest, dr := s.bte.buf[i] }) :=
    { h.toServing with }
  exact ⟨_, .of_exec h.notRefused ha ((h.withAgenda rest).dataWbyte hr hi hlt) (sendByte_trace ..),
    hserving.faulted (f := .ackFailure) h.bpdPc_ne_ready, h.tsPc, h.master, rfl, rfl⟩

/-- `fault` is the step of ENV by which a fault of kind `f` strikes the bus (43 R216, R217). -/
def StrikesBy (f : FaultKind) (fault : Instr) : Prop :=
  (f = .busError ∧ fault = .envBusError) ∨ (f = .arbitrationLost ∧ fault = .envArbLost)

/-- A bus fault strikes while the block is master and no stop is requested (43 R216, R217). -/
theorem StrikesBy.exec {fault : Instr} (h : StrikesBy f fault) (hm : s.sr.master = true) (hstop : s.ctl.stop = false) :
    Machine.exec fault s = .next (raiseFault f s) := by
  have hstrike := (faultMayStrike_iff s).2 ⟨.inr hm, hstop⟩
  obtain ⟨rfl, rfl⟩ | ⟨rfl, rfl⟩ := h <;> exact stepWhen_of hstrike

/-- A bus fault cuts the data phase; only a lost arbitration ends master mode (43 R216, R217). -/
theorem DataOpen.cut {fault : Instr} (h : DataOpen k r s) (hf : StrikesBy f fault) (ha : s.agenda = move fault :: rest) :
    ∃ t, Leads [move fault] s [] t ∧ Faulted k t ∧ t.ts = s.ts ∧ t.bte = s.bte ∧ t.told = s.told ∧
      t.sr.master = (f != .arbitrationLost) := by
  have hu := h.withAgenda rest
  exact ⟨_, .of_exec h.notRefused ha (hf.exec h.master h.stop) (by simp), hu.toServing.faulted hu.bpdPc_ne_ready,
    by simp, by simp, by simp, by simp [h.master]⟩

end Sys2Proof.Machine
end

section
/-! PROOFS. One request from a ready block to a ready block: with no fault, and with each fault the bus can meet (42 R190, R191). -/

namespace Sys2Proof.Machine

/-- Settles O53: the path of a Write that meets no fault. -/
theorem writeEndToEnd : Obligations.WriteEndToEnd := by
  intro k r rest s h hw hadm ha
  obtain ⟨t, q, hpath, hserved, hack⟩ := h.writePath (isRead_of_isWrite hw) hadm ha
  exact ⟨t, q, hpath.run, hpath.agenda_rest ha, hserved.ready, hpath.trace_eq, hserved.told, hserved.status, hserved.length, hack⟩

/-- Settles O54: the path of a Read that meets no fault. -/
theorem readEndToEnd : Obligations.ReadEndToEnd := by
  intro k r bytes rest s h hr hadm hlen ha
  obtain ⟨t, q, hpath, hserved, hbytes, hack⟩ := h.readPath hr hadm hlen ha
  exact ⟨t, q, hpath.run, hpath.agenda_rest ha, hserved.ready, hpath.trace_eq, hserved.told, hserved.status, hserved.length,
    hbytes, hack⟩

/-- Settles O55: the request is opened, its address refused, and the abort sequence reports that nothing was counted. -/
theorem addressNackEndToEnd : Obligations.AddressNackEndToEnd := by
  intro k r rest s h hexit hadm ha
  have hrest := ha
  simp only [addressNackMoves, List.append_assoc] at ha
  obtain ⟨u, hopen, hu, htold, hack⟩ := h.openPath hadm ha
  have ha₁ := hopen.agenda_rest ha
  obtain ⟨v, hnack, hv, hts, hm, hidx, hpar, htold₁, hctl⟩ := hu.refuse ha₁
  have hexit' : v.par.faultExit = true := by rw [hpar, hopen.par_eq, hexit]
  obtain ⟨t, habort, ht, htold₂, hack₂⟩ := hv.abort (.inl ⟨hts, rfl, .inl hexit'⟩) (hnack.agenda_rest ha₁)
  rw [if_pos hm] at habort
  have hrun := (hopen.leads.append hnack).append habort
  refine ⟨t, ⟨.error, v.bte.idx, responseBuffer v⟩, hrun.run, hrun.agenda_rest hrest, ht, hrun.trace, ?told, rfl, hidx, ?ack⟩
  case told => simp [htold₂, htold₁, htold]
  case ack => rw [hack₂, hctl, hack]

/-- Settles O56: the first `j` bytes are sent as in a Write that meets no fault, the next is refused, and the abort sequence reports
`j`. -/
theorem byteNackEndToEnd : Obligations.ByteNackEndToEnd := by
  intro k j r rest s h hw hadm hj ha
  have hr := isRead_of_isWrite hw
  have hrest := ha
  simp only [byteNackMoves, List.append_assoc] at ha
  obtain ⟨u, hopen, hu, htold, -⟩ := h.openPath hadm ha
  have ha₁ := hopen.agenda_rest ha
  obtain ⟨v, hdata, hv, hidx, hbuf, htold₁, -⟩ := hu.openWrite hr hadm ha₁
  have ha₂ := hdata.agenda_rest ha₁
  obtain ⟨-, hle, hcount⟩ := operandCount_some.1 hv.count
  obtain ⟨x, hsend, hx, hidx₂, hn₂, hbuf₂, htold₂, -⟩ := hv.sendBytes hr j (by simp [hidx, hcount]; omega) ha₂
  have ha₃ := hsend.agenda_rest ha₂
  have hj16 : j < 16 := by omega
  have hcounted : x.bte.idx.val = j := by simp [hidx₂, hidx]
  obtain ⟨y, hnack, hy, hts, hm, hidx₃, htold₃⟩ := hx.sendRefused (i := ⟨j, hj16⟩) hr hcounted.symm
    (by rw [hcounted, hn₂, hcount]; exact hj) ha₃
  obtain ⟨t, habort, ht, htold₄, -⟩ := hy.abort (.inr ⟨hts, rfl⟩) (hnack.agenda_rest ha₃)
  rw [if_pos hm] at habort
  have hrun := (((hopen.append hdata).append hsend).leads.append hnack).append habort
  refine ⟨t, ⟨.error, y.bte.idx, responseBuffer y⟩, hrun.run, hrun.agenda_rest hrest, ht, ?trace, ?told, rfl, ?length⟩
  case trace => simpa [hidx, hbuf, hbuf₂, firstBytes, hj16] using hrun.trace
  case told => simp [htold₄, htold₃, htold₂, htold₁, htold]
  case length => exact (congrArg Fin.val hidx₃).trans hcounted

/-- Settles O57: the bytes are received as in a Read that meets no fault, none of them the last, and the abort sequence reports them. -/
theorem readCutByFault : Obligations.ReadCutByFault := by
  intro k r bytes fault rest s h hr hadm hlen hfault ha
  obtain ⟨f, hf⟩ : ∃ f, StrikesBy f fault :=
    hfault.elim (fun hb => ⟨.busError, .inl ⟨rfl, hb⟩⟩) (fun hl => ⟨.arbitrationLost, .inr ⟨rfl, hl⟩⟩)
  have hrest := ha
  simp only [cutReadMoves, List.append_assoc] at ha
  obtain ⟨u, hopen, hu, htold, -⟩ := h.openPath hadm ha
  have ha₁ := hopen.agenda_rest ha
  obtain ⟨v, hdata, hv, hidx, hclosed, hack, htold₁⟩ := hu.openRead hr ha₁
  have ha₂ := hdata.agenda_rest ha₁
  obtain ⟨-, -, hcount⟩ := operandCount_some.1 hv.count
  obtain ⟨x, hreceive, hx, hidx₂, -, -, hbytes, htold₂, -⟩ :=
    hv.receiveBytes bytes hr (by simpa [hidx, hcount] using hlen) hack hclosed ha₂
  have ha₃ := hreceive.agenda_rest ha₂
  obtain ⟨y, hcut, hy, hts, hbte, htold₃, hm⟩ := hx.cut hf ha₃
  obtain ⟨t, habort, ht, htold₄, -⟩ := hy.abort (.inr ⟨by rw [hts, hx.tsPc], rfl⟩) (hcut.agenda_rest ha₃)
  have hrun := (((hopen.append hdata).append hreceive).leads.append hcut).append habort
  refine ⟨t, ⟨.error, y.bte.idx, responseBuffer y⟩, hrun.run, hrun.agenda_rest hrest, ht, ?trace, ?told, rfl, ?length,
    ?received⟩
  case trace =>
    have hstop : y.sr.master = decide (fault = .envBusError) := by
      obtain ⟨rfl, rfl⟩ | ⟨rfl, rfl⟩ := hf <;> exact hm
    simpa [hstop] using hrun.trace
  case told => simp [htold₄, htold₃, htold₂, htold₁, htold]
  case length => simp [hbte, hidx₂, hidx]
  case received =>
    refine (firstBytes_responseBuffer (by rw [hts, hx.req, hr])).trans ?_
    rw [hbte, hbytes, hidx]
    rfl

end Sys2Proof.Machine
end

section
/-! SUPPORT. The steps of the bus environment, each with its effect where its `pre` is true (43 section 2), and what the invariant says of
them. -/

namespace Sys2Proof.Machine

variable {s : State}

/-- EV1 sends the start (43 R211). -/
theorem exec_sendsStart (hstart : s.ctl.start = true) (hstop : s.ctl.stop = false) (hn : NoFault s) :
    exec .envStart s = .next { emit .start s with ctl.start := false, sr.startSent := true, sr.master := true } :=
  stepWhen_of (by simp [hstart, hstop, hn])

/-- EV2 answers the address byte ACK (43 R212). -/
theorem exec_acksAddress (hg : addressGoesOut s = true) :
    exec .envAddrAck s = .next { emit (.addr s.dr .ack) s with sr.addrAcked := true, hid.addrPending := false } :=
  stepWhen_of hg

/-- EV3 answers it NACK (43 R214). -/
theorem exec_nacksAddress (hg : addressGoesOut s = true) :
    exec .envAddrNack s = .next (raiseFault .ackFailure { emit (.addr s.dr .nack) s with hid.addrPending := false }) :=
  stepWhen_of hg

/-- EV4 without master mode puts nothing on the wire (43 R215). -/
theorem exec_endsStop_of_not_master (hstop : s.ctl.stop = true) (hm : s.sr.master = false) :
    exec .envStop s = .next { s with ctl.stop := false, hid.addrPending := false } := by
  have hkeep : { s.sr with master := false } = s.sr := by rw [← hm]
  simp [exec_releases hstop, hm, hkeep]

/-- EV5 (43 R216). -/
theorem exec_raisesBusError (hg : faultMayStrike s = true) : exec .envBusError s = .next (raiseFault .busError s) :=
  stepWhen_of hg

/-- EV6 (43 R217). -/
theorem exec_losesArbitration (hg : faultMayStrike s = true) : exec .envArbLost s = .next (raiseFault .arbitrationLost s) :=
  stepWhen_of hg

/-- No start is a repeated one: where a start pends on a block that is still master, so does its last stop (43 R211). -/
theorem CoreInv.master_false_of_start (h : CoreInv s) (hstart : s.ctl.start = true) (hstop : s.ctl.stop = false) :
    s.sr.master = false := by
  obtain ⟨-, -, hmaster⟩ := h.startBit hstart
  exact Bool.eq_false_iff.2 fun hm => Bool.eq_false_iff.1 hstop (hmaster hm)

/-- A pending address byte is not yet acknowledged (43 R212). -/
theorem CoreInv.addrAcked_false_of_pending (h : CoreInv s) (hp : s.hid.addrPending = true) : s.sr.addrAcked = false := by
  obtain ⟨-, -, hacked⟩ := h.addrPending hp
  exact hacked

/-- The grammar of 43 R220 has admitted every event of the trace. -/
theorem CoreInv.isSome_frameAfter (h : CoreInv s) : (frameAfter s.trace).isSome = true := by
  obtain ⟨f, hf, -⟩ := h.framed
  exact Option.isSome_iff_exists.2 ⟨f, hf⟩

end Sys2Proof.Machine
end

section
/-! PROOFS. The bus environment, step by step, the framing of the trace, and the silence after a fault (43 R211 to R220). -/

namespace Sys2Proof.Machine

/-- Settles O44: the invariant keeps the frame in which the trace stands, and so that there is one. -/
theorem traceFramed : Obligations.TraceFramed :=
  fun _ hreach hok => (hreach.coreInv hok).isSome_frameAfter

/-- Settles O22: EV1's effect, and the invariant on a pending start. -/
theorem startSent : Obligations.StartSent :=
  ⟨fun _ => exec_sendsStart, fun _ hreach hok hstart hstop _ => (hreach.coreInv hok).master_false_of_start hstart hstop⟩

/-- Settles O23: EV2 and EV3 have one `pre`; the invariant has a pending address byte unanswered. -/
theorem addressAnswered : Obligations.AddressAnswered := by
  refine ⟨fun s hp hm hstop hn => ?_, fun s hreach hok => (hreach.coreInv hok).addrAcked_false_of_pending⟩
  have hg := (addressGoesOut_iff s).2 ⟨hp, hm, hstop, hn⟩
  exact ⟨exec_acksAddress hg, exec_nacksAddress hg⟩

/-- Settles O24: EV4's effect for each value of `master`. -/
theorem stopCompleted : Obligations.StopCompleted :=
  fun _ hstop => ⟨execEnvStop_master hstop, exec_endsStop_of_not_master hstop⟩

/-- Settles O25: EV5 and EV6 have one `pre`. -/
theorem busFaultsRaised : Obligations.BusFaultsRaised := by
  intro s hopen hstop
  have hg := (faultMayStrike_iff s).2 ⟨hopen, hstop⟩
  exact ⟨exec_raisesBusError hg, exec_losesArbitration hg⟩

/-- Settles O46: `NoFault` is a conjunct of the `pre` of EV1 to EV3, DP1 and DP2, and none of that of EV4 to EV6. -/
theorem silenceAfterFault : Obligations.SilenceAfterFault := by
  intro s hf
  have haddr : ¬addressGoesOut s = true := by simp [hf]
  refine ⟨stepWhen_of_not (by simp) hf, stepWhen_of_not id haddr, stepWhen_of_not id haddr,
    fun _ => execDataWbyte_waits (by simp [hf]), fun _ => execDataRbyte_waits (by simp [hf]),
    fun hstop => ⟨_, exec_releases hstop, rfl⟩, fun hg => ?strike⟩
  case strike =>
    have hstrike := (faultMayStrike_iff s).2 hg
    exact ⟨_, _, exec_raisesBusError hstrike, rfl, exec_losesArbitration hstrike, rfl⟩

end Sys2Proof.Machine
end

section
/-! SUPPORT. What a fault flag does to the steps (60 R250, R251), and the block that hangs on one because FAULT_EXIT is false (60 R252):
every agent's steps, ENV's included, leave its request unanswered. -/

namespace Sys2Proof.Machine

variable {s t u : State} {i : Instr}

/-! ### A fault flag is set -/

/-- No step but TS6 clears a fault flag (Table 10-1). -/
theorem exec_keeps_fault (he : exec i s = .next t) (hi : i ≠ .tsFinish) (hf : ¬NoFault s) : ¬NoFault t := by
  obtain ⟨-, -, -, -, -, -, -, -, -, hack, hbus, harb, -⟩ := flagWriters i s t he
  intro ⟨hnack, hnbus, hnarb⟩
  exact hf ⟨Bool.eq_false_iff.2 fun hs => hi (hack hs hnack), Bool.eq_false_iff.2 fun hs => hi (hbus hs hnbus),
    Bool.eq_false_iff.2 fun hs => hi (harb hs hnarb)⟩

/-- TS2 waits on a fault (42 R178). -/
theorem tsAddrDone_waits_of_fault (hf : ¬NoFault s) : exec .tsAddrDone s = .next s := stepWhen_of_not (by simp) hf

/-- TS4 waits on a fault (42 R180). -/
theorem tsDataDone_waits_of_fault (hf : ¬NoFault s) : exec .tsDataDone s = .next s := stepWhen_of_not (by simp) hf

/-- With FAULT_EXIT a fault stops the BPD: its guard `G` fails (40 R120, R126). -/
theorem exec_bpd_waits_of_fault (hexit : s.par.faultExit = true) (hf : ¬NoFault s) (hi : agentOf i = .bpd) :
    exec i s = .next s :=
  exec_bpd_waits hi fun ⟨_, hn⟩ => absurd (hn hexit) hf

/-- A block with a fault flag set has a request in service (10_state R52 h). -/
theorem CoreInv.not_atRest_of_fault (h : CoreInv s) (hf : ¬NoFault s) : ¬AtRest s := by
  intro hr
  obtain ⟨-, -, hn, -⟩ := h.rest hr
  exact hf ((faultAny_eq_false_iff s).1 hn)

/-- No step an agent may take changes the count while a fault flag is set: of its writers TS1 needs rest, TS2 and the data steps need
that there is no fault (60 R251). -/
theorem CoreInv.idx_of_fault (h : CoreInv s) (hf : ¬NoFault s) (hi : innerStep i = false)
    (he : Machine.exec i s = .next t) : t.bte.idx = s.bte.idx := by
  by_contra hne
  have of_waits (hw : Machine.exec i s = .next s) : False := hne (by rw [Host.Outcome.next.inj (he.symm.trans hw)])
  obtain ⟨-, -, -, hwbyte, hrbyte, -⟩ := silenceAfterFault s hf
  obtain ⟨-, -, -, -, -, -, -, -, hidx, -⟩ := dataItemWriters i s t he
  obtain rfl | rfl | ⟨n, rfl⟩ | ⟨k, rfl⟩ | ⟨b, rfl⟩ := hidx hne
  · exact of_waits (execTsDequeue_waits fun ⟨hts, _⟩ => h.not_atRest_of_fault hf (.inl hts))
  · exact of_waits (tsAddrDone_waits_of_fault hf)
  · simp [innerStep] at hi
  · exact of_waits (hwbyte k)
  · exact of_waits (hrbyte b)

/-! ### The hang -/

/-- The responses given or waiting, and the sequencers with the request in service, are as they were. -/
structure Unanswered (s t : State) : Prop where
  ts : t.ts = s.ts
  bpd : t.bpd = s.bpd
  responses : receivedResponses t.told ++ t.rspch = receivedResponses s.told ++ s.rspch

theorem Unanswered.refl (s : State) : Unanswered s s := ⟨rfl, rfl, rfl⟩

theorem Unanswered.trans (h : Unanswered s t) (h' : Unanswered t u) : Unanswered s u :=
  ⟨h'.ts.trans h.ts, h'.bpd.trans h.bpd, h'.responses.trans h.responses⟩

theorem SameService.unanswered (h : SameService s t) : Unanswered s t := ⟨h.ts, h.bpd, h.responses⟩

theorem undecoded_par (e : Stimulus) (s : State) : (undecoded e s).par = s.par := by
  obtain he | ⟨k, r, he⟩ := undecoded_cases e s
  · simp [he]
  · obtain ⟨-, -, ho⟩ | ⟨-, -, ho⟩ | ho := offer_cases k r s <;> simp [he, ho]

/-- The BPD waits on as long as no flag is set that it may be waiting for (40 R125). -/
theorem bpdWaits_of_flags (h : bpdWaits s = true) (hbpd : t.bpd = s.bpd) (hsent : t.sr.startSent = true → s.sr.startSent = true)
    (hacked : t.sr.addrAcked = true → s.sr.addrAcked = true) (hm : t.sr.master = true → s.sr.master = true) :
    bpdWaits t = true := by
  unfold bpdWaits at h ⊢
  rw [hbpd]
  cases hpc : s.bpd.pc <;> grind

/-- With FAULT_EXIT false a fault has met a wait of the BPD (60 R252). -/
structure Hung (s : State) : Prop where
  faultExit : s.par.faultExit = false
  tsPc : s.ts.pc = .tsAddr
  waits : bpdWaits s = true
  fault : ¬NoFault s

namespace Hung

/-- Hanging is a matter of the service and of the parameters. -/
theorem of_sameService (h : Hung s) (hst : SameService s t) (hpar : t.par = s.par) : Hung t where
  faultExit := hpar ▸ h.faultExit
  tsPc := hst.ts ▸ h.tsPc
  waits := bpdWaits_of_flags h.waits hst.bpd (by simp [hst.sr]) (by simp [hst.sr]) (by simp [hst.sr])
  fault := by simpa only [NoFault, hst.sr] using h.fault

/-- EV4 ends master mode, which sets no flag and clears no fault (43 R215). -/
theorem completeStop (h : Hung s) : Hung (completeStop s) where
  faultExit := by simpa using h.faultExit
  tsPc := by simpa using h.tsPc
  waits := bpdWaits_of_flags h.waits (completeStop_bpd s) (by simp) (by simp) (by simp)
  fault := by simpa [NoFault] using h.fault

/-- A further fault sets only its own flag (43 R216, R217). -/
theorem raiseFault (h : Hung s) (f : FaultKind) : Hung (raiseFault f s) where
  faultExit := by simpa using h.faultExit
  tsPc := by simpa using h.tsPc
  waits := bpdWaits_of_flags h.waits (raiseFault_bpd f s) (by simp) (by simp) (by simp +contextual)
  fault := (faultAny_eq_true_iff _).1 (raiseFault_faultAny f s)

/-- A step that waits leaves the block hanging. -/
theorem of_waits (h : Hung s) (hw : exec i s = .next s) (he : exec i s = .next t) : Hung t ∧ Unanswered s t :=
  Host.Outcome.next.inj (hw.symm.trans he) ▸ ⟨h, .refl s⟩

/-- TS has no enabled step: TS2 needs that there is no fault, TS3 needs FAULT_EXIT or a data state (42 R178, R179). -/
theorem exec_ts_waits (h : Hung s) (hi : agentOf i = .ts) (hinner : innerStep i = false) : exec i s = .next s := by
  have hts := h.tsPc
  obtain ⟨dequeue, -, addrFault, dataDone, dataFault, finish, put, -⟩ := otherAgentsWait 0 zeroRequest .ack 0 s
  cases i with
  | tsDequeue => exact dequeue fun ⟨hwait, _⟩ => by simp [hts] at hwait
  | tsAddrDone => exact tsAddrDone_waits_of_fault h.fault
  | tsAddrFault =>
    refine addrFault fun ⟨_, _, hexit⟩ => ?_
    have hw := h.waits
    rcases hexit with hexit | hpc | hpc
    · simp [h.faultExit] at hexit
    · simp [bpdWaits, hpc] at hw
    · simp [bpdWaits, hpc] at hw
  | tsDataDone => exact tsDataDone_waits_of_fault h.fault
  | tsDataFault => exact dataFault fun ⟨hdata, _⟩ => by simp [hts] at hdata
  | tsFinish => exact finish fun hfin => by simp [hts] at hfin
  | tsPut => exact put fun ⟨hresp, _⟩ => by simp [hts] at hresp
  | cmdBeginWrite st | cmdBeginRead st => simp_all [agentOf, innerStep]
  | _ => simp [agentOf, innerStep] at hi hinner

/-- ENV sends no start and answers no address byte; a stop and further faults leave the block hanging (43 R218). -/
theorem exec_env (h : Hung s) (hi : agentOf i = .env) (he : exec i s = .next t) : Hung t ∧ Unanswered s t := by
  have of_guard {pre : Bool} {eff : State} (hst : stepWhen pre eff s = .next t) (heff : Hung eff ∧ Unanswered s eff) :
      Hung t ∧ Unanswered s t := stepWhen_keeps (P := fun t => Hung t ∧ Unanswered s t) hst ⟨h, .refl s⟩ fun _ => heff
  obtain ⟨start, addrAck, addrNack, -⟩ := silenceAfterFault s h.fault
  cases i with
  | envStart => exact h.of_waits start he
  | envAddrAck => exact h.of_waits addrAck he
  | envAddrNack => exact h.of_waits addrNack he
  | envStop => exact of_guard he ⟨h.completeStop, by simp, by simp, by simp⟩
  | envBusError => exact of_guard he ⟨h.raiseFault .busError, by simp, by simp, by simp⟩
  | envArbLost => exact of_guard he ⟨h.raiseFault .arbitrationLost, by simp, by simp, by simp⟩
  | cmdBeginWrite st | cmdBeginRead st => cases st <;> simp [agentOf, BeginWriteStep.isFirst, BeginReadStep.isFirst] at hi
  | _ => simp [agentOf] at hi

/-- The data steps need that there is no fault (41 R153, R154). -/
theorem exec_bte_waits (h : Hung s) (hi : agentOf i = .bte) : exec i s = .next s := by
  obtain ⟨-, -, -, wbyte, rbyte, -⟩ := silenceAfterFault s h.fault
  cases i with
  | dataWbyte k => exact wbyte k
  | dataRbyte b => exact rbyte b
  | cmdBeginWrite st | cmdBeginRead st => cases st <;> simp [agentOf, BeginWriteStep.isFirst, BeginReadStep.isFirst] at hi
  | _ => simp [agentOf] at hi

/-- No instruction an agent may issue answers the request, whoever issues it. -/
theorem exec (h : Hung s) (hinner : innerStep i = false) (he : exec i s = .next t) : Hung t ∧ Unanswered s t := by
  cases ha : agentOf i with
  | prod =>
    have hst := SameService.exec_prod ha (by simp [h.tsPc]) he
    obtain ⟨hpar, -⟩ := dataItemWriters i s t he
    exact ⟨h.of_sameService hst hpar, hst.unanswered⟩
  | ts => exact h.of_waits (h.exec_ts_waits ha hinner) he
  | bpd => exact h.of_waits (exec_bpd_waits ha fun _ => h.waits) he
  | bte => exact h.of_waits (h.exec_bte_waits ha) he
  | env => exact h.exec_env ha he

/-- No step answers the request. -/
theorem step (h : Hung s) (ho : ∀ e ∈ s.agenda, Owned e = true) (hs : step s = .next t) :
    (Hung t ∧ Unanswered s t) ∧ ∀ e ∈ t.agenda, Owned e = true := by
  obtain ⟨-, ⟨-, rfl⟩ | ⟨e, rest, ha, hcase⟩⟩ := step_cases hs
  · exact ⟨⟨h, .refl _⟩, ho⟩
  rw [ha] at ho
  have hrest : ∀ x ∈ rest, Owned x = true := fun x hx => ho x (.tail _ hx)
  have hfetched : Hung { s with agenda := rest } := { h with }
  obtain ⟨i, hd, he⟩ | ⟨-, rfl⟩ := hcase
  · obtain ⟨hung, hun⟩ := hfetched.exec (innerStep_of_owned (ho e (.head _)) hd) he
    rw [exec_agenda he]
    exact ⟨⟨hung, hun.ts, hun.bpd, hun.responses⟩, hrest⟩
  · have hst := SameService.undecoded e { s with agenda := rest }
    rw [undecoded_agenda]
    exact ⟨⟨hfetched.of_sameService hst (undecoded_par e _), hst.ts, hst.bpd, hst.responses⟩, hrest⟩

end Hung

end Sys2Proof.Machine
end

section
/-! PROOFS. Faults: the count they leave, what they beat, the abort sequence and the hang without FAULT_EXIT (60 R246 to R252). -/

namespace Sys2Proof.Machine

/-- Settles O47: no writer of the count is enabled, only TS6 clears the flags, and a faulted block in TS_FINISH has a command open. -/
theorem errorCountExact : Obligations.ErrorCountExact := by
  intro i s t hreach hok hf hi he
  have h := hreach.coreInv hok
  refine ⟨h.idx_of_fault hf hi he, fun hne => exec_keeps_fault he hne hf, ?reported⟩
  case reported =>
    rintro rfl hresp
    have hserves := h.not_atRest_of_fault hf
    have hts : s.ts.pc = .tsFinish := by
      by_contra hne
      cases (stepWhen_of_not (by simp) hne : exec .tsFinish s = .next s).symm.trans he
      exact hserves (.inr hresp)
    obtain ⟨hpc, hinit, -⟩ := h.service hserves
    cases (execTsFinish_ends hts hinit hpc).symm.trans he
    rfl

/-- Settles O52, by induction on the run: each step leaves the request unanswered and the block hanging. -/
theorem faultExitFalseHangs : Obligations.FaultExitFalseHangs := by
  refine ⟨fun n s t hexit hts hw hf ho hrun => ?hangs, fun s => exec_latchesDataFault, rfl⟩
  case hangs =>
    have hkept : (Hung t ∧ Unanswered s t) ∧ ∀ e ∈ t.agenda, Owned e = true := by
      refine run_keeps (P := fun u => (Hung u ∧ Unanswered s u) ∧ ∀ e ∈ u.agenda, Owned e = true) ?_
        ⟨⟨⟨hexit, hts, hw, hf⟩, .refl s⟩, ho⟩ hrun
      intro u v ⟨⟨hung, hun⟩, hou⟩ hs
      obtain ⟨⟨hung', hun'⟩, hov⟩ := hung.step hou hs
      exact ⟨⟨hung', hun.trans hun'⟩, hov⟩
    obtain ⟨⟨hung, hun⟩, -⟩ := hkept
    exact ⟨hun.ts, hun.bpd, hung.fault, hun.responses⟩

/-- Settles O48: TS2, TS4, the BPD and the data steps wait on a fault; TS3 and TS5 latch Error; TS6 reports what was latched. -/
theorem faultBeatsCompletion : Obligations.FaultBeatsCompletion := by
  intro s hf
  obtain ⟨-, -, -, hwbyte, hrbyte, -⟩ := silenceAfterFault s hf
  refine ⟨tsAddrDone_waits_of_fault hf, tsDataDone_waits_of_fault hf, fun hts => exec_latchesDataFault hts hf,
    fun hts hexit => exec_latchesAddrFault hts hf hexit,
    fun hts hi hpc => ⟨_, execTsFinish_ends hts hi hpc, rfl, rfl, rfl, rfl, rfl⟩, fun hexit st st' hst hst' => ?bpd,
    fun k b => ⟨hwbyte k, hrbyte b⟩⟩
  case bpd =>
    exact ⟨exec_bpd_waits_of_fault hexit hf (by simp [agentOf, hst]), exec_bpd_waits_of_fault hexit hf (by simp [agentOf, hst'])⟩

/-- Settles O49: the run is `Observes.abort`, the state after it `afterAbort`. -/
theorem abortSequence : Obligations.AbortSequence := by
  intro observe rest s hok hf hi hpc hroom hobs ha
  have hrun := Observes.abort hobs hok hf hi hpc hroom ha
  exact ⟨afterAbort rest s, responseBuffer s, hrun.run, rfl, hok, rfl, rfl, rfl, rfl, rfl, rfl, rfl, rfl, rfl, rfl, rfl, rfl, rfl,
    fun hk i => responseBuffer_received s i (isRead_iff.2 hk), rfl⟩

end Sys2Proof.Machine
end

section
/-! SUPPORT. Quiescence (70 R289): a block in it waits for its producers, and a served block comes back to it. -/

namespace Sys2Proof.Machine

variable {s : State} {i : Instr}

/-- The six flags are clear: no fault, and neither a start, an acknowledged address nor master mode to act on (10_state R29 to R34). -/
theorem sr_clear_iff :
    s.sr = ⟨false, false, false, false, false, false⟩ ↔
      NoFault s ∧ s.sr.startSent = false ∧ s.sr.addrAcked = false ∧ s.sr.master = false := by
  cases hsr : s.sr
  simp only [NoFault, hsr, Sr.mk.injEq]
  tauto

/-- In a quiescent state every agent but a producer waits: TS for a request, the BPD for a command, the engine to be armed, and ENV
for a pending start, address byte, stop or transaction. -/
theorem Quiescent.exec_waits (h : Quiescent s) (hi : agentOf i ≠ .prod) (hinner : innerStep i = false) :
    exec i s = .next s := by
  have hts := h.tsPc
  obtain ⟨-, -, -, hmaster⟩ := sr_clear_iff.1 h.flags
  have bpd (ha : agentOf i = .bpd) : exec i s = .next s := exec_bpd_waits ha fun ⟨haddr, _⟩ => by simp [hts] at haddr
  obtain ⟨dequeue, addrDone, addrFault, dataDone, dataFault, finish, put, -, -, start, address, stop, fault, -⟩ :=
    otherAgentsWait 0 zeroRequest .ack 0 s
  obtain ⟨addrAck, addrNack⟩ := address fun ⟨hpending, _⟩ => by simp [h.addrPending] at hpending
  obtain ⟨busError, arbLost⟩ := fault fun ⟨hopen, _⟩ => by simp [h.start, hmaster] at hopen
  cases i with
  | cmdBeginWrite st | cmdBeginRead st =>
    have hfirst : st.isFirst = false := hinner
    exact bpd (by simp [agentOf, hfirst])
  | waWrite a | waRead a => exact bpd rfl
  | tsDequeue => exact dequeue fun ⟨_, hreq, _⟩ => hreq h.reqch
  | tsAddrDone => exact addrDone fun ⟨haddr, _⟩ => by simp [hts] at haddr
  | tsAddrFault => exact addrFault fun ⟨haddr, _⟩ => by simp [hts] at haddr
  | tsDataDone => exact dataDone fun ⟨hdata, _⟩ => by simp [hts] at hdata
  | tsDataFault => exact dataFault fun ⟨hdata, _⟩ => by simp [hts] at hdata
  | tsFinish => exact finish fun hfin => by simp [hts] at hfin
  | tsPut => exact put fun ⟨hresp, _⟩ => by simp [hts] at hresp
  | dataWbyte k => exact execDataWbyte_waits fun ⟨harmed, _⟩ => by simp [h.armed] at harmed
  | dataRbyte b => exact execDataRbyte_waits fun ⟨harmed, _⟩ => by simp [h.armed] at harmed
  | envStart => exact start fun ⟨hstart, _⟩ => by simp [h.start] at hstart
  | envAddrAck => exact addrAck
  | envAddrNack => exact addrNack
  | envStop => exact stop h.stop
  | envBusError => exact busError
  | envArbLost => exact arbLost
  | cmdEnd | bteArm n | bteDisarm => simp [innerStep] at hinner
  | _ => simp [agentOf] at hi

/-- A block in TS_WAIT with both channels empty and no stop pending is quiescent: at rest master mode outlives only a pending stop. -/
theorem CoreInv.quiescent (h : CoreInv s) (hts : s.ts.pc = .tsWait) (hreq : s.reqch = []) (hrsp : s.rspch = [])
    (hstop : s.ctl.stop = false) : Quiescent s := by
  obtain ⟨hpc, harmed, hfault, hstart, hsent, hacked, hpending, hmaster⟩ := h.rest (.inl hts)
  have hm : s.sr.master = false := Bool.eq_false_iff.2 fun hm => by simp [hmaster hm] at hstop
  have hflags := sr_clear_iff.2 ⟨(faultAny_eq_false_iff s).1 hfault, hsent, hacked, hm⟩
  exact ⟨hreq, hrsp, hts, hpc, hstart, hstop, harmed, hflags, hpending⟩

end Sys2Proof.Machine
end

section
/-! PROOFS. Reset (70 R280, R283) and quiescence (70 R289). -/

namespace Sys2Proof.Machine

/-- Settles O50: the guard of every step but a producer's fails in a quiescent state, and the invariant brings a served block back to one. -/
theorem quiescentRests : Obligations.QuiescentRests :=
  ⟨fun _ _ h => h.exec_waits, ⟨rfl, rfl, rfl, rfl, rfl, rfl, rfl, rfl, rfl⟩,
    fun _ hreach hok => (hreach.coreInv hok).quiescent⟩

/-- Settles O27: each value is read off the reset state. -/
theorem resetValues : Obligations.ResetValues :=
  ⟨rfl, rfl, rfl, rfl, rfl, rfl, rfl, rfl, rfl, rfl, rfl, rfl, rfl⟩

/-- Settles O38: the launch half of the invariant's induction. -/
theorem launchMeetsInvariant : Obligations.LaunchMeetsInvariant := launch_inv

end Sys2Proof.Machine
end

section
/-! PROOFS. The sample words of the formats (95 V-MSG, V-WA). -/

namespace Sys2Proof.Machine

/-- Settles O29: each word is the encoding of the instruction it stands for, so the round trip gives it back. -/
theorem sampleWordsDecode : Obligations.SampleWordsDecode :=
  ⟨decodeEncode (.reqRead 0 0x50#8 2#8 .zero) rfl, decodeEncode (.rspError 0 0 .zero) rfl,
    decodeEncode (.cmdBeginRead (.br1 0x50#8 4#8)) rfl, decodeEncode .cmdEnd rfl,
    decodeEncode (.waWrite 0x50#7) rfl, decodeEncode (.waRead 0x51#7) rfl⟩

end Sys2Proof.Machine
end
